-- ==== Sys2Proof/Word.lean ====
section
/-! DEFINITION. The word types of the FDC (00_scope.md R9, R10, R13). -/

namespace Sys2Proof

/-- One byte of a byte buffer or of a WireFrame. -/
abbrev Byte := BitVec 8

/-- A 64-bit register value, command word, port response or binary64 bit pattern (R9, R13). -/
abbrev Word := BitVec 64

end Sys2Proof
end

