-- ==== Sys2Proof/Config.lean ====
section
/-! DEFINITION. What an implementation of the FDC fixes: the constants of the geometry (00_scope.md R7), the
parameters (R8), and the constants without a body that stand for the values the spec leaves open. -/

namespace Sys2Proof

/-! ## Fixed geometry (R7) -/

def frameBytes : Nat := 1032
def headerBytes : Nat := 8
def subframeBytes : Nat := 512
def syncBytes : Nat := 3
def ccBytes : Nat := 5
def payloadBytes : Nat := 504
def iqGroupBytes : Nat := 6
def micGroupBytes : Nat := 2

/-- The largest IQ output, 126 groups of 6 bytes (20_memory.md R52). -/
def iqOutBytes : Nat := 756

/-- The largest microphone output, 126 groups of 2 bytes (20_memory.md R53). -/
def micOutBytes : Nat := 252

/-! ## Parameters (R8) -/

/-- MIC_DECIM_384: the decimation at 384 kHz, 8 or REFUSE (R8, R26). -/
inductive MicDecim384
  | eight
  | refuse
  deriving DecidableEq, Repr

/-- Which function a conversion applies: the spec's default (R132, R135), or a replacement, of which the model
knows only what it may depend on. Replacements are numbered so that the configuration stays plain data. -/
inductive CvtRule
  | standard
  | replaced (k : Nat)
  deriving DecidableEq, Repr

/-- The parameters a model takes as arguments (R8). No step changes them. -/
structure Config where
  /-- MAX_BLOCK_LEN, 1 to 65535 complex samples. -/
  maxBlockLen : Nat
  /-- STRICT_SYNC: DECODE checks the sync bytes (R102). -/
  strictSync : Bool
  /-- MIC_DECIM_384. -/
  micDecim384 : MicDecim384
  /-- cvt_in (R132). -/
  cvtInRule : CvtRule
  /-- cvt_out (R135). -/
  cvtOutRule : CvtRule
  deriving DecidableEq, Repr

/-- The range R8 gives MAX_BLOCK_LEN. -/
def Config.legal (c : Config) : Bool :=
  decide (1 ≤ c.maxBlockLen) && decide (c.maxBlockLen ≤ 65535)

/-! ## Values the spec leaves open -/

/-- One less than the MAX_BLOCK_LEN of the chip that `State.reset` describes. DESIGN CHOICE, log 5: R8 leaves the
value OPEN in 1 to 65535, so it is a constant without a body. -/
opaque Config.maxBlockLenPred : Fin 65535

/-- The sign (bit 51) and the payload (bits 50 to 0) of the n-th quiet NaN drawn. DESIGN CHOICE, log 6: R138 leaves
both open, so it is a function without a body. -/
opaque Config.nanDraw : Nat → BitVec 52

/-- The k-th replacement of cvt_in: of the integer and of SCALE_IN alone (R132). DESIGN CHOICE, log 7. -/
opaque Config.cvtInReplaced : Nat → Int → BitVec 64 → BitVec 64

/-- The k-th replacement of cvt_out: of the element and of SCALE_OUT alone, with a 16-bit two's-complement
result, which is R135's range. DESIGN CHOICE, log 7. -/
opaque Config.cvtOutReplaced : Nat → BitVec 64 → BitVec 64 → BitVec 16

/-- The configuration at `State.reset`: the values R8 takes, and the OPEN MAX_BLOCK_LEN (log 5). -/
def Config.chip : Config where
  maxBlockLen := Config.maxBlockLenPred.val + 1
  strictSync := true
  micDecim384 := .eight
  cvtInRule := .standard
  cvtOutRule := .standard

end Sys2Proof
end

