-- ==== Sys2Proof/Syntax.lean ====
section
/-! DEFINITION. What the FDC executes: one constructor of `Instr` for each row of opcode_table.json. -/

namespace Sys2Proof

/-- The seven buffers, the address spaces 1 to 7 of 20_memory.md R50. Space 0 is the register port. -/
inductive Space
  | frameIn
  | iqOut
  | micOut
  | cvtIn
  | dspIn
  | dspOut
  | audioOut
  deriving DecidableEq, Repr

/-- The five kinds of payload group (30_encoding.md R79). -/
inductive GroupKind
  | iqCopy
  | iqSkip
  | micCopy
  | micSkip
  | pad
  deriving DecidableEq, Repr

/-- An instruction of the FDC: a command word (R81), a host transaction (R82), or a payload group (R79). -/
inductive Instr
  /-- NOP (R150). -/
  | nop
  /-- DECODE (R100). -/
  | decode
  /-- CVT_IN (R130). -/
  | cvtIn
  /-- CVT_OUT (R134). -/
  | cvtOut
  /-- RESET (R151). -/
  | reset
  /-- ILLEGAL (R152): a command word that is none of R81's five. -/
  | illegal (w : BitVec 64)
  /-- REG_RD (R155). -/
  | regRd (off : BitVec 20)
  /-- REG_WR (R154). -/
  | regWr (off : BitVec 20) (v : BitVec 64)
  /-- BUF_RD (R157). -/
  | bufRd (sp : Space) (off : BitVec 20)
  /-- BUF_WR (R156). -/
  | bufWr (sp : Space) (off : BitVec 20) (data : BitVec 64)
  /-- IQ_COPY (R106): the group's I and Q fields, each 3 bytes, big-endian (R74). -/
  | iqCopy (i q : BitVec 24)
  /-- IQ_SKIP (R107): another receiver's I and Q fields, which nothing reads. -/
  | iqSkip (i q : BitVec 24)
  /-- MIC_COPY (R108): the microphone sample's 2 bytes, the first the high one. -/
  | micCopy (m : BitVec 16)
  /-- MIC_SKIP (R109): a microphone sample's 2 bytes, which nothing reads. -/
  | micSkip (m : BitVec 16)
  /-- PAD (R110): the 4 padding bytes of N = 3, which nothing reads. -/
  | pad (p : BitVec 32)
  deriving DecidableEq, Repr

end Sys2Proof
end

