-- ==== Sys2Proof/WellFormed.lean ====
section
/-! DEFINITION. Which instructions the spec gives a meaning: legal register offsets (20_memory.md R60), buffer offsets
below the space's size (R63), and ILLEGAL only for words that are no command (30_encoding.md R81). -/

namespace Sys2Proof

/-- The size of a buffer in elements, for a MAX_BLOCK_LEN of `maxB` (20_memory.md R50). -/
def Space.size (maxB : Nat) : Space → Nat
  | .frameIn => frameBytes
  | .iqOut => iqOutBytes
  | .micOut => micOutBytes
  | .cvtIn => 6 * maxB
  | .dspIn => 2 * maxB
  | .dspOut => 2 * maxB
  | .audioOut => 4 * maxB

/-- A register-port offset: a multiple of 8, at most 0x78 (20_memory.md R60). -/
def regOffsetOk (off : BitVec 20) : Bool :=
  decide (off.toNat % 8 = 0) && decide (off.toNat ≤ 0x78)

/-- Is `w` one of the five command words of 30_encoding.md R81? -/
def isCommandWord (w : BitVec 64) : Bool :=
  w == 0x0#64 || w == 0x1#64 || w == 0x2#64 || w == 0x3#64 || w == 0xF#64

/-- The checks on an instruction's operands, for a MAX_BLOCK_LEN of `maxB`. -/
def Instr.wellFormed (maxB : Nat) : Instr → Bool
  | .nop => true
  | .decode => true
  | .cvtIn => true
  | .cvtOut => true
  | .reset => true
  | .illegal w => !isCommandWord w
  | .regRd off => regOffsetOk off
  | .regWr off _ => regOffsetOk off
  | .bufRd sp off => decide (off.toNat < sp.size maxB)
  | .bufWr sp off _ => decide (off.toNat < sp.size maxB)
  | .iqCopy _ _ => true
  | .iqSkip _ _ => true
  | .micCopy _ => true
  | .micSkip _ => true
  | .pad _ => true

end Sys2Proof
end

