-- ==== Sys2Proof/Decode.lean ====
section
/-! DEFINITION. The decoder, total on any bits and rejecting by name, and the encoder, both from 30_encoding.md:
command words (R80, R81), host transactions (R82) and payload groups (R73, R74, R79). -/

namespace Sys2Proof

/-- Why the decoder rejects (30_encoding.md R82; the last for a group cut to the wrong length, which no walk does). -/
inductive DecodeError
  /-- A reserved bit, [7:5] or [31:28], is not zero. -/
  | reservedBits
  /-- A REG kind with SPACE not 0. -/
  | regSpace
  /-- A BUF kind with SPACE 0. -/
  | bufSpace
  /-- A payload group whose byte count is not its kind's (R79). -/
  | groupLength
  deriving DecidableEq, Repr

/-! ## The decoder -/

/-- The command a 64-bit word written to CMD stands for (R81): a full-word match, and ILLEGAL for every other. -/
def decodeCommand (w : BitVec 64) : Instr :=
  if w = 0x0#64 then .nop
  else if w = 0x1#64 then .decode
  else if w = 0x2#64 then .cvtIn
  else if w = 0x3#64 then .cvtOut
  else if w = 0xF#64 then .reset
  else .illegal w

/-- The buffer with a 3-bit space id; id 0 is the register port (20_memory.md R50). -/
def Space.ofId (b : BitVec 3) : Option Space :=
  if b = 1#3 then some .frameIn
  else if b = 2#3 then some .iqOut
  else if b = 3#3 then some .micOut
  else if b = 4#3 then some .cvtIn
  else if b = 5#3 then some .dspIn
  else if b = 6#3 then some .dspOut
  else if b = 7#3 then some .audioOut
  else none

/-- The host transaction a 96-bit word stands for (R82). The checks on OFFSET are the transactions' own
(42_control.md R154 to R157). -/
def decodeTxn (w : BitVec 96) : Except DecodeError Instr :=
  let kind := w.extractLsb' 0 2
  let space := w.extractLsb' 2 3
  let off := w.extractLsb' 8 20
  let data := w.extractLsb' 32 64
  if w.extractLsb' 5 3 ≠ 0#3 ∨ w.extractLsb' 28 4 ≠ 0#4 then .error .reservedBits
  else if kind = 0#2 then
    if space = 0#3 then .ok (.regRd off) else .error .regSpace
  else if kind = 1#2 then
    if space = 0#3 then .ok (.regWr off data) else .error .regSpace
  else
    match Space.ofId space with
    | none => .error .bufSpace
    | some sp => if kind = 2#2 then .ok (.bufRd sp off) else .ok (.bufWr sp off data)

/-- The bytes of a payload group, in transmission order, as the instruction of its kind (R74, R79). -/
def decodeGroup (k : GroupKind) (bs : List Byte) : Except DecodeError Instr :=
  match k, bs with
  | .iqCopy, [g0, g1, g2, g3, g4, g5] => .ok (.iqCopy (g0 ++ g1 ++ g2) (g3 ++ g4 ++ g5))
  | .iqSkip, [g0, g1, g2, g3, g4, g5] => .ok (.iqSkip (g0 ++ g1 ++ g2) (g3 ++ g4 ++ g5))
  | .micCopy, [g0, g1] => .ok (.micCopy (g0 ++ g1))
  | .micSkip, [g0, g1] => .ok (.micSkip (g0 ++ g1))
  | .pad, [g0, g1, g2, g3] => .ok (.pad (g0 ++ g1 ++ g2 ++ g3))
  | _, _ => .error .groupLength

/-- How many bytes a group of a kind has (R79; PAD only for N = 3, R76). -/
def GroupKind.bytes : GroupKind → Nat
  | .iqCopy => 6
  | .iqSkip => 6
  | .micCopy => 2
  | .micSkip => 2
  | .pad => 4

/-- An encoded instruction, in one of the three formats of opcode_table.json. -/
inductive Encoded
  /-- A 64-bit value written to CMD (R80). -/
  | command (w : BitVec 64)
  /-- A 96-bit host transaction (R82). -/
  | transaction (w : BitVec 96)
  /-- A payload group's bytes, in transmission order (R79). -/
  | group (bs : List Byte)
  deriving DecidableEq, Repr

/-- The instruction of an encoded one. A payload group's kind is not in its bytes: its position gives it (R78, R79). -/
def decode (k : GroupKind) : Encoded → Except DecodeError Instr
  | .command w => .ok (decodeCommand w)
  | .transaction w => decodeTxn w
  | .group bs => decodeGroup k bs

/-! ## The encoder -/

/-- The space id of a buffer (20_memory.md R50). -/
def Space.toId : Space → BitVec 3
  | .frameIn => 1#3
  | .iqOut => 2#3
  | .micOut => 3#3
  | .cvtIn => 4#3
  | .dspIn => 5#3
  | .dspOut => 6#3
  | .audioOut => 7#3

/-- The 96-bit word with the fields of R82 and zero reserved bits. -/
def txnWord (kind : BitVec 2) (space : BitVec 3) (off : BitVec 20) (data : BitVec 64) : BitVec 96 :=
  data ++ 0#4 ++ off ++ 0#3 ++ space ++ kind

/-- The 3 bytes of a 24-bit big-endian field, the first the most significant (R10, R74). -/
def bytes24 (v : BitVec 24) : List Byte :=
  [v.extractLsb' 16 8, v.extractLsb' 8 8, v.extractLsb' 0 8]

/-- The 2 bytes of a 16-bit big-endian field (R10, R83). -/
def bytes16 (v : BitVec 16) : List Byte :=
  [v.extractLsb' 8 8, v.extractLsb' 0 8]

/-- The 4 bytes of a 32-bit big-endian field (R10). -/
def bytes32 (v : BitVec 32) : List Byte :=
  [v.extractLsb' 24 8, v.extractLsb' 16 8, v.extractLsb' 8 8, v.extractLsb' 0 8]

/-- The kind of group an instruction is; for an instruction that is no payload group, any kind will do. -/
def Instr.groupKind : Instr → GroupKind
  | .iqCopy _ _ => .iqCopy
  | .iqSkip _ _ => .iqSkip
  | .micCopy _ => .micCopy
  | .micSkip _ => .micSkip
  | .pad _ | .nop | .decode | .cvtIn | .cvtOut | .reset | .illegal _
  | .regRd _ | .regWr _ _ | .bufRd _ _ | .bufWr _ _ _ => .pad

/-- The words of an instruction: R81 for commands, R82 for transactions (a read's DATA is sent as zero), R73 and
R79 for payload groups. -/
def encode : Instr → Encoded
  | .nop => .command 0x0#64
  | .decode => .command 0x1#64
  | .cvtIn => .command 0x2#64
  | .cvtOut => .command 0x3#64
  | .reset => .command 0xF#64
  | .illegal w => .command w
  | .regRd off => .transaction (txnWord 0#2 0#3 off 0#64)
  | .regWr off v => .transaction (txnWord 1#2 0#3 off v)
  | .bufRd sp off => .transaction (txnWord 2#2 sp.toId off 0#64)
  | .bufWr sp off data => .transaction (txnWord 3#2 sp.toId off data)
  | .iqCopy i q => .group (bytes24 i ++ bytes24 q)
  | .iqSkip i q => .group (bytes24 i ++ bytes24 q)
  | .micCopy m => .group (bytes16 m)
  | .micSkip m => .group (bytes16 m)
  | .pad p => .group (bytes32 p)

/-! ## The opcode table's words -/

/-- The bytes of an IQ-wide group whose table pattern, read as one number, is `w`: the pattern is in transmission
order, so the first byte is the number's most significant one (log 9). -/
def groupBytes48 (w : Nat) : List Byte :=
  bytes24 (BitVec.ofNat 24 (w / 2 ^ 24)) ++ bytes24 (BitVec.ofNat 24 w)

/-- The instruction the decoder reads from a table row's word of `nbits` bits, numbered as the table numbers them:
64 bits are a command word, 96 a host transaction, 48, 16 and 32 a payload group. The copying kind is taken for 48
and 16 bits, since the bits of IQ_COPY and IQ_SKIP, and of MIC_COPY and MIC_SKIP, are the same (R79; log 9). -/
def decodeTableWord (nbits w : Nat) : Option Instr :=
  if nbits = 64 then some (decodeCommand (BitVec.ofNat 64 w))
  else if nbits = 96 then (decodeTxn (BitVec.ofNat 96 w)).toOption
  else if nbits = 48 then (decodeGroup .iqCopy (groupBytes48 w)).toOption
  else if nbits = 16 then (decodeGroup .micCopy (bytes16 (BitVec.ofNat 16 w))).toOption
  else if nbits = 32 then (decodeGroup .pad (bytes32 (BitVec.ofNat 32 w))).toOption
  else none

end Sys2Proof
end

