-- ==== Sys2Proof/Machine/State.lean ====
section
/-! DEFINITION. The FDC's state as plain data (10_state.md R40, 20_memory.md R50), why a step can stop, and the
state after reset (70_reset_and_hazards.md R191, R192). -/

namespace Sys2Proof.Machine

/-- A buffer's contents: the elements that are not zero, as (offset, element) with strictly rising offsets. An
unlisted offset reads as zero, the reset contents of 20_memory.md R68. `Memory 8` is a list of `Host.Cell`. -/
abbrev Memory (w : Nat) := List (Nat × BitVec w)

/-- The decoder's internal registers (10_state.md R38), which exist only while a DECODE runs. Numbers and not bit
vectors: no software sees them, and R38's ranges are an invariant (log 12). -/
structure Walk where
  /-- Sub-frame being decoded, 0 or 1. -/
  sf : Nat
  /-- Payload byte offset, 0 to 504 (R37). -/
  cur : Nat
  /-- Position in the period, 0 to N: N is the microphone group. -/
  slot : Nat
  /-- Microphone sub-state, 0 to D-1: 0 copies. -/
  mphase : Nat
  /-- Periods completed in this sub-frame, 0 to G. -/
  per : Nat
  /-- Next write offset in IQ_OUT, 0 to 756. -/
  iqWp : Nat
  /-- Next write offset in MIC_OUT, 0 to 252. -/
  micWp : Nat
  deriving DecidableEq, Repr

/-- What reaches the block from outside, in arrival order (20_memory.md R66; log 1). -/
inductive HostInput
  /-- A 96-bit host transaction (30_encoding.md R82). -/
  | txn (w : BitVec 96)
  /-- The input pin `rst_i` takes a level (70_reset_and_hazards.md R190). -/
  | rst (asserted : Bool)
  /-- Power-on (R190). -/
  | powerOn
  deriving DecidableEq, Repr

structure State where
  /-- The parameters (00_scope.md R8), which PARAMS shows (10_state.md R33). No step changes them. -/
  config : Config
  /-- DEC_CFG[6:0]: RX_COUNT, RX_SEL, RATE (R25). -/
  decCfg : BitVec 7
  /-- FRAME_LEN.LEN (R27). -/
  frameLen : BitVec 11
  /-- BLOCK_LEN.B (R28). -/
  blockLen : BitVec 16
  /-- SCALE_IN (R29). -/
  scaleIn : Word
  /-- SCALE_OUT (R30). -/
  scaleOut : Word
  /-- STATUS.FAULT (R23). -/
  fault : BitVec 8
  /-- STATUS.SIN_VALID (R23). -/
  sinValid : Bool
  /-- STATUS.SOUT_VALID (R23). -/
  soutValid : Bool
  /-- IQ_COUNT.COUNT (R31). -/
  iqCount : BitVec 16
  /-- MIC_COUNT.COUNT (R32). -/
  micCount : BitVec 16
  /-- FRAME_IN (20_memory.md R51). -/
  frameIn : Memory 8
  /-- IQ_OUT (R52). -/
  iqOut : Memory 8
  /-- MIC_OUT (R53). -/
  micOut : Memory 8
  /-- CVT_IN (R54). -/
  cvtIn : Memory 8
  /-- DSP_IN (R55). -/
  dspIn : Memory 64
  /-- DSP_OUT (R56). -/
  dspOut : Memory 64
  /-- AUDIO_OUT (R57). -/
  audioOut : Memory 8
  /-- The decoder's internal registers while a DECODE runs (10_state.md R38; log 8). -/
  walk : Option Walk
  /-- The model's: the level of the input pin `rst_i` (70_reset_and_hazards.md R190; log 3). -/
  rstI : Bool
  /-- The model's: what is still to arrive, in arrival order (log 1). -/
  inputs : List HostInput
  /-- The model's: the port's response to the transaction just taken (30_encoding.md R82; log 2). -/
  response : Option Word
  /-- The model's: how many quiet NaNs have been drawn (41_convert.md R138; log 6). -/
  nanDraws : Nat
  deriving DecidableEq, Repr

/-- Why the machine stops with a fault: never. Every fault of the FDC is a code in STATUS.FAULT, and raising it is a
next state (60_exceptions.md R171); so no constructor is needed, which is safe. -/
inductive Fault : Type
  deriving DecidableEq, Repr

/-- Why a step has no meaning. -/
inductive Refusal
  /-- An instruction of the opcode table that has no meaning here yet; raised by `exec`'s arms alone. Safe. -/
  | notModelled (mnemonic : String)
  /-- A transaction that the decoder rejects (30_encoding.md R82); raised by `step`. Safe: R82 says it has no
  effect and no step. -/
  | malformed (e : DecodeError)
  /-- REG_RD or REG_WR at an offset that is no register's (42_control.md R154, R155). Safe, as R154 says. -/
  | regOffset
  /-- BUF_RD or BUF_WR at or beyond the space's size (R156, R157). Safe, as 20_memory.md R63 says. -/
  | bufOffset
  /-- Any transaction while `rst_i` is asserted (70_reset_and_hazards.md R190); raised by `step`. Safe. -/
  | resetAsserted
  /-- A payload group where no DECODE runs: the registers it acts on do not exist (10_state.md R38). Safe. -/
  | noDecodeRunning
  /-- A payload group of a kind that the decoder's position does not select (30_encoding.md R79). Safe. -/
  | groupNotSelected
  deriving DecidableEq, Repr

/-- The machine right after reset: every register and flag at the value of 70_reset_and_hazards.md R191, every buffer
element zero (R192). The configuration and the model's own fields: log 1, 2, 3, 5 and 6. -/
def State.reset : State where
  config := Config.chip
  decCfg := 0
  frameLen := 0
  blockLen := 0
  scaleIn := 0
  scaleOut := 0
  fault := 0
  sinValid := false
  soutValid := false
  iqCount := 0
  micCount := 0
  frameIn := []
  iqOut := []
  micOut := []
  cvtIn := []
  dspIn := []
  dspOut := []
  audioOut := []
  walk := none
  rstI := false
  inputs := []
  response := none
  nanDraws := 0

end Sys2Proof.Machine
end

