-- ==== Sys2Proof/Machine/Operands.lean ====
section
/-! DEFINITION. The operands of the FDC's instructions: the fields of the registers (10_state.md R21 to R36), the
register port's offsets, the byte-order and sign-extension helpers (00_scope.md R10, R11), and the geometry that
DEC_CFG fixes (30_encoding.md R71, R73, R76; 40_decode.md R103). -/

namespace Sys2Proof.Machine

/-! ## Fields of DEC_CFG (R25) -/

/-- DEC_CFG.RX_COUNT, N. -/
def State.rxCount (s : State) : Nat := (s.decCfg.extractLsb' 0 2).toNat

/-- DEC_CFG.RX_SEL, counted from 0. -/
def State.rxSel (s : State) : Nat := (s.decCfg.extractLsb' 2 2).toNat

/-- DEC_CFG.RATE. -/
def State.rate (s : State) : Nat := (s.decCfg.extractLsb' 4 3).toNat

/-- BLOCK_LEN.B (R28). -/
def State.block (s : State) : Nat := s.blockLen.toNat

/-- FRAME_LEN.LEN (R27). -/
def State.declaredLen (s : State) : Nat := s.frameLen.toNat

/-! ## The register port (R21) -/

/-- The registers by name; the six offsets of R35 are one case. -/
inductive Reg
  | cmd
  | status
  | decCfg
  | frameLen
  | blockLen
  | scaleIn
  | scaleOut
  | iqCount
  | micCount
  | params
  | reserved
  deriving DecidableEq, Repr

/-- The register at the n-th 8-byte slot (R21, R35). -/
def regSlot (n : Nat) : Reg :=
  match n with
  | 0 => .cmd
  | 1 => .status
  | 2 => .decCfg
  | 3 => .frameLen
  | 4 => .blockLen
  | 5 => .scaleIn
  | 6 => .scaleOut
  | 7 => .iqCount
  | 8 => .micCount
  | 9 => .params
  | _ => .reserved

/-- The register at a register-port offset; none where the transaction is refused (20_memory.md R60). -/
def regAt (off : BitVec 20) : Option Reg :=
  if regOffsetOk off then some (regSlot (off.toNat / 8)) else none

/-- PARAMS (R33): MAX_BLOCK_LEN in [15:0], STRICT_SYNC in [16], DEC384_REFUSE in [17]. -/
def paramsWord (c : Config) : Word :=
  (BitVec.ofBool (c.micDecim384 == .refuse) ++ BitVec.ofBool c.strictSync ++ BitVec.ofNat 16 c.maxBlockLen).setWidth 64

/-! ## Byte order and sign extension (R10, R11, R58) -/

/-- 41_convert.md R131: the 24-bit big-endian value shifted up into a 32-bit word, and arithmetically back down. -/
def sext24 (b0 b1 b2 : Byte) : Int :=
  ((b0 ++ b1 ++ b2 ++ 0#8 : BitVec 32).sshiftRight 8).toInt

/-! ## Geometry (30_encoding.md R71, R73, R76; 40_decode.md R103) -/

/-- SB(s), the offset of a sub-frame's sync bytes. -/
def syncBase (sf : Nat) : Nat := headerBytes + subframeBytes * sf

/-- CB(s), the offset of a sub-frame's CC bytes. -/
def ccBase (sf : Nat) : Nat := syncBase sf + syncBytes

/-- PB(s), the offset of a sub-frame's payload: 16 and 528. -/
def payloadBase (sf : Nat) : Nat := ccBase sf + ccBytes

/-- P(N), the bytes of a period: 8, 14, 20. -/
def periodBytes (n : Nat) : Nat := iqGroupBytes * n + micGroupBytes

/-- G(N), the whole periods of a payload: 63, 36, 25. -/
def periods (n : Nat) : Nat := payloadBytes / periodBytes n

/-- PADB(N), the bytes no period covers: 0, 0, 4. -/
def padBytes (n : Nat) : Nat := payloadBytes - periods n * periodBytes n

/-- D, the microphone decimation factor of a rate code (10_state.md R26): 1, 2, 4, 8. -/
def decimation (rate : Nat) : Nat := 2 ^ rate

end Sys2Proof.Machine
end

