-- ==== Sys2Proof/Machine/Flags.lean ====
section
/-! DEFINITION. The FDC's flags (10_state.md R23, R24), the fault codes (60_exceptions.md R170), the STATUS word
and the output `fault_o` (R174). There are no condition codes and no IEEE 754 flags (R24, 41_convert.md R137). -/

namespace Sys2Proof.Machine

/-- The faults a command can raise (60_exceptions.md R170). -/
inductive FaultCode
  | illegalCmd
  | cfgRxCount
  | cfgRxSel
  | cfgRate
  | frameSize
  | sync
  | geometry
  | blockSize
  | scaleUnset
  deriving DecidableEq, Repr

/-- The code that FAULT holds (R170). -/
def FaultCode.code : FaultCode → BitVec 8
  | .illegalCmd => 0x01#8
  | .cfgRxCount => 0x02#8
  | .cfgRxSel => 0x03#8
  | .cfgRate => 0x04#8
  | .frameSize => 0x05#8
  | .sync => 0x06#8
  | .geometry => 0x07#8
  | .blockSize => 0x08#8
  | .scaleUnset => 0x09#8

/-- Is the block faulted? -/
def State.faulted (s : State) : Bool := s.fault != 0#8

/-- The level output `fault_o` (R174). -/
def State.faultO (s : State) : Bool := s.faulted

/-- STATUS: FAULT in [7:0], SIN_VALID in [8], SOUT_VALID in [9] (R23, 42_control.md R155). -/
def State.status (s : State) : Word :=
  (BitVec.ofBool s.soutValid ++ BitVec.ofBool s.sinValid ++ s.fault).setWidth 64

end Sys2Proof.Machine
end

