-- ==== Sys2Proof/Machine/Ops.lean ====
section
/-! DEFINITION. The named operations over buffers and registers, and the shared ones of every command: raising a
fault (60_exceptions.md R171), ignoring a command while faulted (42_control.md R153), and reset
(70_reset_and_hazards.md R191, R192). -/

namespace Sys2Proof.Machine

/-! ## Buffers -/

/-- What an unlisted element reads as: zero (20_memory.md R68). -/
def blankElem (w : Nat) : BitVec w := 0#w

/-- The element at an offset. -/
def Memory.read {w : Nat} : Memory w → Nat → BitVec w
  | [], _ => blankElem w
  | (k, x) :: rest, a => if k = a then x else Memory.read rest a

/-- Store an element, keeping the canonical form: storing a blank element unlists it. -/
def Memory.write {w : Nat} : Memory w → Nat → BitVec w → Memory w
  | [], a, v => if v = blankElem w then [] else [(a, v)]
  | (k, x) :: rest, a, v =>
    if a < k then (if v = blankElem w then (k, x) :: rest else (a, v) :: (k, x) :: rest)
    else if a = k then (if v = blankElem w then rest else (a, v) :: rest)
    else (k, x) :: Memory.write rest a v

/-- The canonical form from offset `lo` on: offsets strictly rising, no blank element listed. -/
def Memory.wfFrom {w : Nat} : Nat → Memory w → Bool
  | _, [] => true
  | lo, (k, x) :: rest => decide (lo ≤ k) && (x != blankElem w) && Memory.wfFrom (k + 1) rest

/-- The canonical form of a buffer's contents: equal contents are equal lists. -/
def Memory.wf {w : Nat} (m : Memory w) : Bool := Memory.wfFrom 0 m

/-- Does every listed element lie below `n`? -/
def Memory.below {w : Nat} (n : Nat) : Memory w → Bool
  | [] => true
  | (k, _) :: rest => decide (k < n) && Memory.below n rest

/-- `MemRead(m:a, n)`, the elements at a to a+n-1 (00_scope.md R12). -/
def Memory.readSeq {w : Nat} (m : Memory w) (a : Nat) : Nat → List (BitVec w)
  | 0 => []
  | n + 1 => m.read a :: Memory.readSeq m (a + 1) n

/-- `MemWrite(m:a, n, s)`, a sequence stored from offset a on (00_scope.md R12). -/
def Memory.writeSeq {w : Nat} (m : Memory w) (a : Nat) : List (BitVec w) → Memory w
  | [] => m
  | x :: rest => Memory.writeSeq (m.write a x) (a + 1) rest

/-- The element of a buffer, as the port returns it: a byte zero-extended, or a binary64 pattern (42_control.md
R157). -/
def State.readSpace (s : State) (sp : Space) (off : Nat) : Word :=
  match sp with
  | .frameIn => (s.frameIn.read off).setWidth 64
  | .iqOut => (s.iqOut.read off).setWidth 64
  | .micOut => (s.micOut.read off).setWidth 64
  | .cvtIn => (s.cvtIn.read off).setWidth 64
  | .dspIn => s.dspIn.read off
  | .dspOut => s.dspOut.read off
  | .audioOut => (s.audioOut.read off).setWidth 64

/-- Store one element of a buffer: DATA[7:0] in a byte space, all of DATA in a binary64 one (42_control.md R156). -/
def State.writeSpace (s : State) (sp : Space) (off : Nat) (data : Word) : State :=
  match sp with
  | .frameIn => { s with frameIn := s.frameIn.write off (data.extractLsb' 0 8) }
  | .iqOut => { s with iqOut := s.iqOut.write off (data.extractLsb' 0 8) }
  | .micOut => { s with micOut := s.micOut.write off (data.extractLsb' 0 8) }
  | .cvtIn => { s with cvtIn := s.cvtIn.write off (data.extractLsb' 0 8) }
  | .dspIn => { s with dspIn := s.dspIn.write off data }
  | .dspOut => { s with dspOut := s.dspOut.write off data }
  | .audioOut => { s with audioOut := s.audioOut.write off (data.extractLsb' 0 8) }

/-- The size of a buffer of this chip (20_memory.md R50). -/
def State.sizeOf (s : State) (sp : Space) : Nat := sp.size s.config.maxBlockLen

/-! ## The port -/

/-- The response of a read (30_encoding.md R82). -/
def State.respond (s : State) (v : Word) : State := { s with response := some v }

/-! ## Faults and reset -/

/-- Fault entry (60_exceptions.md R171): the code goes to FAULT, and nothing else changes. -/
def raiseFault (c : FaultCode) (s : State) : State := { s with fault := c.code }

/-- A command's effect where FAULT = 0; while FAULT is not zero the command is ignored (42_control.md R153). -/
def unlessFaulted (s : State) (f : State → State) : State :=
  if s.faulted then s else f s

/-- A command that first looks for a fault: raise the first that applies, or run. Every check comes before the
command's first write, so a fault is precise (60_exceptions.md R171). -/
def raiseOr (c : Option FaultCode) (f : State → State) (s : State) : State :=
  match c with
  | some c => raiseFault c s
  | none => f s

/-- apply_reset (42_control.md R151): every register, flag and buffer at its reset value. The configuration is a
constant (R191), and what is the host's or the platform's own, not the block's, stays (log 10). -/
def applyReset (s : State) : State :=
  { State.reset with
    config := s.config
    rstI := s.rstI
    inputs := s.inputs
    response := s.response
    nanDraws := s.nanDraws }

/-! ## Registers (10_state.md R21) -/

/-- What a read of a register returns (42_control.md R155). -/
def State.readReg (s : State) (r : Reg) : Word :=
  match r with
  | .cmd => 0#64
  | .status => s.status
  | .decCfg => s.decCfg.setWidth 64
  | .frameLen => s.frameLen.setWidth 64
  | .blockLen => s.blockLen.setWidth 64
  | .scaleIn => s.scaleIn
  | .scaleOut => s.scaleOut
  | .iqCount => s.iqCount.setWidth 64
  | .micCount => s.micCount.setWidth 64
  | .params => paramsWord s.config
  | .reserved => 0#64

/-- What a write of a register other than CMD stores (42_control.md R154): the low bits that the register has (R34);
a scale's write also sets its valid flag (R29, R30); read-only and reserved registers ignore it (R35, R36). CMD
stores nothing (R22); the command it starts is the REG_WR's own. -/
def State.writeReg (s : State) (r : Reg) (v : Word) : State :=
  match r with
  | .cmd => s
  | .status => s
  | .decCfg => { s with decCfg := v.extractLsb' 0 7 }
  | .frameLen => { s with frameLen := v.extractLsb' 0 11 }
  | .blockLen => { s with blockLen := v.extractLsb' 0 16 }
  | .scaleIn => { s with scaleIn := v, sinValid := true }
  | .scaleOut => { s with scaleOut := v, soutValid := true }
  | .iqCount => s
  | .micCount => s
  | .params => s
  | .reserved => s

end Sys2Proof.Machine
end

