-- ==== Sys2Proof/Machine/Walk.lean ====
section
/-! DEFINITION. The decoder's sub-frame state machine (40_decode.md R103 to R113): the state of a position, what each
state does to the internal registers, the bounds check of R112, and the effect of each payload group. -/

namespace Sys2Proof.Machine

/-! ## The state machine (R104, R105) -/

/-- The decoder's states (R105): IQ, SIQk, M, SMj, PAD and END. -/
inductive WalkState
  | iq
  | siq (k : Nat)
  | mic
  | sm (j : Nat)
  | pad
  | done
  deriving DecidableEq, Repr

/-- classify (R105), for N receivers of which `sel` is selected. -/
def classify (n sel : Nat) (w : Walk) : WalkState :=
  if w.per = periods n then
    if w.cur < payloadBytes then .pad else .done
  else if w.slot < n then
    if w.slot = sel then .iq
    else if w.slot < sel then .siq (w.slot + 1)
    else .siq w.slot
  else if w.mphase = 0 then .mic
  else .sm w.mphase

/-- The payload group a state consumes (30_encoding.md R79); END consumes none. -/
def WalkState.group : WalkState → Option GroupKind
  | .iq => some .iqCopy
  | .siq _ => some .iqSkip
  | .mic => some .micCopy
  | .sm _ => some .micSkip
  | .pad => some .pad
  | .done => none

/-- The registers at the start of sub-frame 1 (R103, R104). -/
def Walk.start : Walk where
  sf := 0
  cur := 0
  slot := 0
  mphase := 0
  per := 0
  iqWp := 0
  micWp := 0

/-- A fresh state for the next sub-frame (R104); the write pointers run on (R103, R113). -/
def Walk.nextSubframe (w : Walk) : Walk :=
  { w with sf := w.sf + 1, cur := 0, slot := 0, mphase := 0, per := 0 }

/-- State IQ (R106). -/
def Walk.afterIqCopy (w : Walk) : Walk :=
  { w with iqWp := w.iqWp + 6, cur := w.cur + 6, slot := w.slot + 1 }

/-- States SIQ1 and SIQ2 (R107). -/
def Walk.afterIqSkip (w : Walk) : Walk :=
  { w with cur := w.cur + 6, slot := w.slot + 1 }

/-- State M (R108), for a decimation factor `d`. -/
def Walk.afterMicCopy (d : Nat) (w : Walk) : Walk :=
  { w with micWp := w.micWp + 2, cur := w.cur + 2, slot := 0, mphase := (w.mphase + 1) % d, per := w.per + 1 }

/-- State SMj (R109), for a decimation factor `d`. -/
def Walk.afterMicSkip (d : Nat) (w : Walk) : Walk :=
  { w with cur := w.cur + 2, slot := 0, mphase := (w.mphase + 1) % d, per := w.per + 1 }

/-- State PAD (R110). -/
def Walk.afterPad (w : Walk) : Walk :=
  { w with cur := payloadBytes }

/-- The offset in FRAME_IN of the group at the cursor: base + cur (R104, R106). -/
def Walk.source (w : Walk) : Nat := payloadBase w.sf + w.cur

/-- The state of the walk `w` under this DEC_CFG. -/
def State.walkState (s : State) (w : Walk) : WalkState := classify s.rxCount s.rxSel w

/-! ## Bounds (R112) -/

/-- May n bytes of FRAME_IN be read from offset `off`? -/
def frameReadOk (len off n : Nat) : Bool := decide (off + n ≤ len) && decide (off + n ≤ frameBytes)

/-- The accesses of state IQ (R106) are in bounds. -/
def iqCopyOk (len : Nat) (w : Walk) : Bool :=
  frameReadOk len w.source 6 && decide (w.iqWp + 6 ≤ iqOutBytes)

/-- The accesses of state M (R108) are in bounds. -/
def micCopyOk (len : Nat) (w : Walk) : Bool :=
  frameReadOk len w.source 2 && decide (w.micWp + 2 ≤ micOutBytes)

/-- More states than a DECODE can pass: every group has at least 2 bytes, so a sub-frame has at most 252 groups and
one END. -/
def walkFuel : Nat := 2 * (payloadBytes / micGroupBytes + 1)

/-- The check before the first write (R112): walk the registers alone through both sub-frames, for N, sel, D and the
declared length, and check every access that will be made. -/
def walkInBounds (n sel d len : Nat) : Nat → Walk → Bool
  | 0, _ => false
  | fuel + 1, w =>
    match classify n sel w with
    | .iq => iqCopyOk len w && walkInBounds n sel d len fuel w.afterIqCopy
    | .siq _ => walkInBounds n sel d len fuel w.afterIqSkip
    | .mic => micCopyOk len w && walkInBounds n sel d len fuel (w.afterMicCopy d)
    | .sm _ => walkInBounds n sel d len fuel (w.afterMicSkip d)
    | .pad => walkInBounds n sel d len fuel w.afterPad
    | .done => if w.sf = 0 then walkInBounds n sel d len fuel w.nextSubframe else true

/-! ## The payload groups (R106 to R110) -/

/-- D of this DEC_CFG (10_state.md R26). -/
def State.decim (s : State) : Nat := decimation s.rate

/-- A group's access out of bounds (R112, 00_scope.md R12): Fault(GEOMETRY), and the DECODE that would go on is
aborted, so its internal registers are gone (log 8). -/
def geometryAbort (s : State) : State := { raiseFault .geometry s with walk := none }

/-- State IQ (R106): the group's 6 bytes go to IQ_OUT verbatim. -/
def iqCopyGroup (i q : BitVec 24) (w : Walk) (s : State) : State :=
  if iqCopyOk s.declaredLen w then
    { s with iqOut := s.iqOut.writeSeq w.iqWp (bytes24 i ++ bytes24 q), walk := some w.afterIqCopy }
  else geometryAbort s

/-- States SIQ1 and SIQ2 (R107). -/
def iqSkipGroup (w : Walk) (s : State) : State := { s with walk := some w.afterIqSkip }

/-- State M (R108): the group's 2 bytes go to MIC_OUT verbatim. -/
def micCopyGroup (m : BitVec 16) (w : Walk) (s : State) : State :=
  if micCopyOk s.declaredLen w then
    { s with micOut := s.micOut.writeSeq w.micWp (bytes16 m), walk := some (w.afterMicCopy s.decim) }
  else geometryAbort s

/-- State SMj (R109). -/
def micSkipGroup (w : Walk) (s : State) : State := { s with walk := some (w.afterMicSkip s.decim) }

/-- State PAD (R110). -/
def padGroup (w : Walk) (s : State) : State := { s with walk := some w.afterPad }

/-- END (R104, R110): go on to the second sub-frame, or complete the DECODE and write the counts (R111). -/
def endSubframe (w : Walk) (s : State) : State :=
  if w.sf = 0 then { s with walk := some w.nextSubframe }
  else
    { s with
      iqCount := BitVec.ofNat 16 (w.iqWp / 6)
      micCount := BitVec.ofNat 16 (w.micWp / 2)
      walk := none }

/-- The bytes of the group of a kind at the cursor, `MemRead(FRAME_IN:base + cur, n)`. -/
def groupBytes (k : GroupKind) (w : Walk) (s : State) : List Byte := s.frameIn.readSeq w.source k.bytes

/-- The payload group at the cursor, decoded by its position (30_encoding.md R78, R79); none at END. -/
def fetchGroup (w : Walk) (s : State) : Option (Except DecodeError Instr) :=
  match (s.walkState w).group with
  | none => none
  | some k => some (decodeGroup k (groupBytes k w s))

/-- What the group does to the state. The last arm is for instructions that are no payload group, which
`fetchGroup` never gives. -/
def performGroup (i : Instr) (w : Walk) (s : State) : State :=
  match i with
  | .iqCopy i q => iqCopyGroup i q w s
  | .iqSkip _ _ => iqSkipGroup w s
  | .micCopy m => micCopyGroup m w s
  | .micSkip _ => micSkipGroup w s
  | .pad _ => padGroup w s
  | .nop | .decode | .cvtIn | .cvtOut | .reset | .illegal _
  | .regRd _ | .regWr _ _ | .bufRd _ _ | .bufWr _ _ _ => s

/-- One round of decode_subframe's loop (R104): classify, and perform the state. -/
def walkStep (w : Walk) (s : State) : State :=
  match fetchGroup w s with
  | some (.ok i) => performGroup i w s
  | some (.error _) => s
  | none => endSubframe w s

/-- The loop of R104, until END of the second sub-frame. -/
def runWalk : Nat → State → State
  | 0, s => s
  | fuel + 1, s =>
    match s.walk with
    | none => s
    | some w => runWalk fuel (walkStep w s)

/-- A payload group by itself, as a step of the walk: it has its effect where a DECODE runs and its position selects
the kind (30_encoding.md R79). -/
def whenSelected (k : GroupKind) (s : State) (f : Walk → State) : Host.Outcome State Fault Refusal :=
  match s.walk with
  | none => .refused .noDecodeRunning
  | some w => if (s.walkState w).group = some k then .next (f w) else .refused .groupNotSelected

end Sys2Proof.Machine
end

