-- ==== Sys2Proof/Machine/Groups.lean ====
section
/-! DEFINITION. The meanings of the payload groups (30_encoding.md R79, 40_decode.md R106 to R110), each a step of a
DECODE's walk; DECODE itself runs the same operations in one atomic step (log 8). -/

namespace Sys2Proof.Machine

/-- IQ_COPY (R106). -/
def execIqCopy (i q : BitVec 24) (s : State) : Host.Outcome State Fault Refusal :=
  whenSelected .iqCopy s (fun w => iqCopyGroup i q w s)

/-- IQ_SKIP (R107). Its operands are another receiver's bytes, which nothing reads. -/
def execIqSkip (_i _q : BitVec 24) (s : State) : Host.Outcome State Fault Refusal :=
  whenSelected .iqSkip s (fun w => iqSkipGroup w s)

/-- MIC_COPY (R108). -/
def execMicCopy (m : BitVec 16) (s : State) : Host.Outcome State Fault Refusal :=
  whenSelected .micCopy s (fun w => micCopyGroup m w s)

/-- MIC_SKIP (R109). Its operand is a skipped sample, which nothing reads. -/
def execMicSkip (_m : BitVec 16) (s : State) : Host.Outcome State Fault Refusal :=
  whenSelected .micSkip s (fun w => micSkipGroup w s)

/-- PAD (R110). Its operand is the padding, which nothing reads. -/
def execPad (_p : BitVec 32) (s : State) : Host.Outcome State Fault Refusal :=
  whenSelected .pad s (fun w => padGroup w s)

end Sys2Proof.Machine
end

