-- ==== Sys2Proof/Machine/Control.lean ====
section
/-! DEFINITION. The control commands NOP, RESET and ILLEGAL (42_control.md R150 to R153). -/

namespace Sys2Proof.Machine

/-- NOP (R150): no state changes, faulted or not. -/
def execNop (s : State) : Host.Outcome State Fault Refusal := .next s

/-- RESET (R151): taken even while faulted (R153). -/
def execReset (s : State) : Host.Outcome State Fault Refusal := .next (applyReset s)

/-- ILLEGAL (R152): Fault(ILLEGAL_CMD), whatever the word. -/
def execIllegal (_w : BitVec 64) (s : State) : Host.Outcome State Fault Refusal :=
  .next (unlessFaulted s (raiseFault .illegalCmd))

end Sys2Proof.Machine
end

