-- ==== Sys2Proof/Machine/Binary64.lean ====
section
/-! DEFINITION. The binary64 arithmetic of the default conversions (00_scope.md R13, 41_convert.md R132, R135): the
value a bit pattern stands for, the product rounded to nearest with ties to even, and truncation. PRESUMED, log 11:
R13 names IEEE 754, and its details are taken from there. -/

namespace Sys2Proof.Machine

/-- What a 64-bit pattern stands for: a NaN, an infinity, or (-1)^neg * m * 2^e. -/
inductive F64
  | nan
  | inf (neg : Bool)
  | finite (neg : Bool) (m : Nat) (e : Int)
  deriving DecidableEq, Repr

/-- f64(bits) (R132): 1 sign bit, 11 exponent bits with bias 1023, 52 fraction bits (R13). -/
def f64 (b : BitVec 64) : F64 :=
  let neg := b.msb
  let ex := (b.extractLsb' 52 11).toNat
  let fr := (b.extractLsb' 0 52).toNat
  if ex = 2047 then
    if fr = 0 then .inf neg else .nan
  else if ex = 0 then .finite neg fr (-1074)
  else .finite neg (2 ^ 52 + fr) ((ex : Int) - 1075)

/-- isNaN (R13). -/
def isNaN64 (b : BitVec 64) : Bool := f64 b == .nan

/-- A NaN whose fraction's first bit is set. -/
def isQuietNaN64 (b : BitVec 64) : Bool := isNaN64 b && b.getLsbD 51

/-- The quiet NaN with sign bit `d[51]` and payload `d[50:0]` (41_convert.md R138). -/
def quietNaN (d : BitVec 52) : BitVec 64 :=
  d.extractLsb' 51 1 ++ 0x7FF#11 ++ 1#1 ++ d.extractLsb' 0 51

/-- The bit pattern with a sign and the 63 bits below it. -/
def signed64 (neg : Bool) (mag : Nat) : BitVec 64 := BitVec.ofBool neg ++ BitVec.ofNat 63 mag

/-- The 63 bits of infinity. -/
def infMag : Nat := 2047 * 2 ^ 52

/-- m / 2^k to the nearest integer, ties to even. -/
def rneShift (m k : Nat) : Nat :=
  let d := m / 2 ^ k
  let r := m % 2 ^ k
  if 2 ^ k < 2 * r ∨ (2 * r = 2 ^ k ∧ d % 2 = 1) then d + 1 else d

/-- (-1)^neg * m * 2^e to the nearest binary64, ties to even: no flush of subnormals, and overflow to infinity
(R132). The last place is 2^q, for 53 significant bits or at the subnormal end q = -1074; the significand added
to the exponent field carries into it by itself. -/
def roundF64 (neg : Bool) (m : Nat) (e : Int) : BitVec 64 :=
  if m = 0 then signed64 neg 0
  else
    let q : Int := max (e + (Nat.log2 m : Int) - 52) (-1074)
    let r : Nat := if q ≤ e then m * 2 ^ (e - q).toNat else rneShift m (q - e).toNat
    let mag : Nat := (q + 1074).toNat * 2 ^ 52 + r
    signed64 neg (min mag infMag)

/-- fp64(v) (R13): the binary64 of an integer, exact for |v| ≤ 2^53. -/
def fp64 (v : Int) : BitVec 64 := roundF64 (decide (v < 0)) v.natAbs 0

/-- `a *RNE b` (R13); none where the product is a NaN (a NaN operand, or an infinity times a zero), whose bits
41_convert.md R138 leaves open. -/
def mulRNE (a b : BitVec 64) : Option (BitVec 64) :=
  match f64 a, f64 b with
  | .nan, _ => none
  | _, .nan => none
  | .inf sa, .inf sb => some (signed64 (sa != sb) infMag)
  | .inf sa, .finite sb m _ => if m = 0 then none else some (signed64 (sa != sb) infMag)
  | .finite sa m _, .inf sb => if m = 0 then none else some (signed64 (sa != sb) infMag)
  | .finite sa ma ea, .finite sb mb eb => some (roundF64 (sa != sb) (ma * mb) (ea + eb))

/-- floor(m * 2^e): the magnitude of trunc (R13). -/
def truncMag (m : Nat) (e : Int) : Nat :=
  if 0 ≤ e then m * 2 ^ e.toNat else m / 2 ^ (-e).toNat

/-- The saturating truncation of R135. For an integer bound, y ≥ 32767.0 exactly when y is not negative and its
integer part is at least 32767; y ≤ -32768.0 exactly when y is negative and its magnitude's is at least 32768. -/
def saturate16 (y : F64) : Int :=
  match y with
  | .nan => 0
  | .inf false => 32767
  | .inf true => -32768
  | .finite false m e => if 32767 ≤ truncMag m e then 32767 else (truncMag m e : Int)
  | .finite true m e => if 32768 ≤ truncMag m e then -32768 else -(truncMag m e : Int)

end Sys2Proof.Machine
end

