-- ==== Sys2Proof/Machine/Convert.lean ====
section
/-! DEFINITION. The sample-format converter: CVT_IN and CVT_OUT (41_convert.md R130 to R138), each one atomic step
(20_memory.md R61). -/

namespace Sys2Proof.Machine

/-- The checks of both conversions, in their order (R130, R134): the block length, then the scale's valid flag. -/
def convertFault (s : State) (scaleValid : Bool) : Option FaultCode :=
  if s.block = 0 ∨ s.config.maxBlockLen < s.block then some .blockSize
  else if scaleValid then none
  else some .scaleUnset

/-! ## Inbound -/

/-- The default cvt_in (R132), `fp64(v) *RNE f64(SCALE_IN)`; none where the product is a NaN. -/
def cvtInStandard (scale : Word) (v : Int) : Option Word := mulRNE (fp64 v) scale

/-- cvt_in (R132): the default, or a replacement, of v and SCALE_IN alone. -/
def cvtInValue (c : Config) (scale : Word) (v : Int) : Option Word :=
  match c.cvtInRule with
  | .standard => cvtInStandard scale v
  | .replaced k => some (Config.cvtInReplaced k v scale)

/-- Write cvt_in(v) to DSP_IN[i]. A NaN is some quiet NaN, drawn afresh (R138; log 6). -/
def convertInElem (i : Nat) (v : Int) (s : State) : State :=
  match cvtInValue s.config s.scaleIn v with
  | some b => { s with dspIn := s.dspIn.write i b }
  | none => { s with dspIn := s.dspIn.write i (quietNaN (Config.nanDraw s.nanDraws)), nanDraws := s.nanDraws + 1 }

/-- The 24-bit value at an offset of CVT_IN (R131). -/
def cvtInSample (m : Memory 8) (off : Nat) : Int :=
  sext24 (m.read off) (m.read (off + 1)) (m.read (off + 2))

/-- One round of R130's loop: pair k, I to DSP_IN[2k] and Q to DSP_IN[2k+1] (R133). -/
def convertInPair (k : Nat) (s : State) : State :=
  convertInElem (2 * k + 1) (cvtInSample s.cvtIn (6 * k + 3)) (convertInElem (2 * k) (cvtInSample s.cvtIn (6 * k)) s)

/-- `n` rounds from pair k on. -/
def convertInFrom : Nat → Nat → State → State
  | 0, _, s => s
  | n + 1, k, s => convertInFrom n (k + 1) (convertInPair k s)

/-- CVT_IN (R130). -/
def execCvtIn (s : State) : Host.Outcome State Fault Refusal :=
  .next (unlessFaulted s (fun s => raiseOr (convertFault s s.sinValid) (convertInFrom s.block 0) s))

/-! ## Outbound -/

/-- The default cvt_out (R135): the product with SCALE_OUT, NaN to 0, saturated, truncated toward zero. -/
def cvtOutStandard (scale x : Word) : Int :=
  match mulRNE x scale with
  | none => 0
  | some y => saturate16 (f64 y)

/-- cvt_out(x) mod 2^16 (R134, R135): the default, or a replacement, of x and SCALE_OUT alone. -/
def cvtOutValue (c : Config) (scale x : Word) : BitVec 16 :=
  match c.cvtOutRule with
  | .standard => BitVec.ofInt 16 (cvtOutStandard scale x)
  | .replaced k => Config.cvtOutReplaced k x scale

/-- One round of R134's loop: DSP_OUT[2k] and DSP_OUT[2k+1] as 4 big-endian bytes at AUDIO_OUT[4k] (R136). -/
def convertOutPair (k : Nat) (s : State) : State :=
  let ia := cvtOutValue s.config s.scaleOut (s.dspOut.read (2 * k))
  let ib := cvtOutValue s.config s.scaleOut (s.dspOut.read (2 * k + 1))
  { s with audioOut := s.audioOut.writeSeq (4 * k) (bytes16 ia ++ bytes16 ib) }

/-- `n` rounds from pair k on. -/
def convertOutFrom : Nat → Nat → State → State
  | 0, _, s => s
  | n + 1, k, s => convertOutFrom n (k + 1) (convertOutPair k s)

/-- CVT_OUT (R134). -/
def execCvtOut (s : State) : Host.Outcome State Fault Refusal :=
  .next (unlessFaulted s (fun s => raiseOr (convertFault s s.soutValid) (convertOutFrom s.block 0) s))

end Sys2Proof.Machine
end

