-- ==== Sys2Proof/Machine/Decoder.lean ====
section
/-! DEFINITION. DECODE (40_decode.md R100 to R103, R111, R112): the checks in their order, then the walk over both
sub-frames, in one atomic step (20_memory.md R61). -/

namespace Sys2Proof.Machine

/-- validate (R101): the first of the four configuration checks that fails. -/
def validate (s : State) : Option FaultCode :=
  if s.rxCount = 0 then some .cfgRxCount
  else if s.rxCount ≤ s.rxSel then some .cfgRxSel
  else if 3 < s.rate ∨ (s.rate = 3 ∧ s.config.micDecim384 = .refuse) then some .cfgRate
  else if s.declaredLen ≠ frameBytes then some .frameSize
  else none

/-- The sync bytes of R102 are in place: header and packet type, and both sub-frames' sync. -/
def syncOk (m : Memory 8) : Bool :=
  m.readSeq 0 3 == [0xEF#8, 0xFE#8, 0x01#8] &&
  m.readSeq (syncBase 0) 3 == [0x7F#8, 0x7F#8, 0x7F#8] &&
  m.readSeq (syncBase 1) 3 == [0x7F#8, 0x7F#8, 0x7F#8]

/-- check_sync (R102), only when STRICT_SYNC is true. -/
def checkSync (s : State) : Option FaultCode :=
  if s.config.strictSync && !syncOk s.frameIn then some .sync else none

/-- bounds_check (R112). -/
def boundsCheck (s : State) : Option FaultCode :=
  if walkInBounds s.rxCount s.rxSel s.decim s.declaredLen walkFuel Walk.start then none else some .geometry

/-- The fault DECODE raises, if any, in the order of R100 and 60_exceptions.md R172. -/
def decodeFault (s : State) : Option FaultCode :=
  match validate s with
  | some c => some c
  | none =>
    match checkSync s with
    | some c => some c
    | none => boundsCheck s

/-- setup and the two decode_subframe loops (R103, R104), which end with the counts (R111). -/
def demultiplex (s : State) : State := runWalk walkFuel { s with walk := some Walk.start }

/-- DECODE (R100). -/
def execDecode (s : State) : Host.Outcome State Fault Refusal :=
  .next (unlessFaulted s (fun s => raiseOr (decodeFault s) demultiplex s))

end Sys2Proof.Machine
end

