-- ==== Sys2Proof/Machine/HostPort.lean ====
section
/-! DEFINITION. The host transactions REG_RD, REG_WR, BUF_RD and BUF_WR (42_control.md R154 to R157). -/

namespace Sys2Proof.Machine

/-- `command(v)` (R154): the command that a write of v to CMD starts. Each command is ignored while faulted by its
own meaning (R153). The last arm is for instructions that `decodeCommand` never gives. -/
def command (v : BitVec 64) (s : State) : Host.Outcome State Fault Refusal :=
  match decodeCommand v with
  | .nop => execNop s
  | .decode => execDecode s
  | .cvtIn => execCvtIn s
  | .cvtOut => execCvtOut s
  | .reset => execReset s
  | .illegal w => execIllegal w s
  | .regRd _ | .regWr _ _ | .bufRd _ _ | .bufWr _ _ _
  | .iqCopy _ _ | .iqSkip _ _ | .micCopy _ | .micSkip _ | .pad _ => .next s

/-- REG_RD (R155). -/
def execRegRd (off : BitVec 20) (s : State) : Host.Outcome State Fault Refusal :=
  match regAt off with
  | none => .refused .regOffset
  | some r => .next (s.respond (s.readReg r))

/-- REG_WR (R154): a command at CMD, a store elsewhere. -/
def execRegWr (off : BitVec 20) (v : BitVec 64) (s : State) : Host.Outcome State Fault Refusal :=
  match regAt off with
  | none => .refused .regOffset
  | some .cmd => command v s
  | some r => .next (s.writeReg r v)

/-- BUF_RD (R157). -/
def execBufRd (sp : Space) (off : BitVec 20) (s : State) : Host.Outcome State Fault Refusal :=
  if off.toNat < s.sizeOf sp then .next (s.respond (s.readSpace sp off.toNat)) else .refused .bufOffset

/-- BUF_WR (R156). -/
def execBufWr (sp : Space) (off : BitVec 20) (data : BitVec 64) (s : State) : Host.Outcome State Fault Refusal :=
  if off.toNat < s.sizeOf sp then .next (s.writeSpace sp off.toNat data) else .refused .bufOffset

end Sys2Proof.Machine
end

