-- ==== Sys2Proof/Machine/Dispatch.lean ====
section
/-! DEFINITION. Which meaning each instruction has. -/

namespace Sys2Proof.Machine

def exec (i : Instr) (s : State) : Host.Outcome State Fault Refusal :=
  match i with
  | .nop => Sys2Proof.Machine.execNop s
  | .decode => Sys2Proof.Machine.execDecode s
  | .cvtIn => Sys2Proof.Machine.execCvtIn s
  | .cvtOut => Sys2Proof.Machine.execCvtOut s
  | .reset => Sys2Proof.Machine.execReset s
  | .illegal w => Sys2Proof.Machine.execIllegal w s
  | .regRd off => Sys2Proof.Machine.execRegRd off s
  | .regWr off v => Sys2Proof.Machine.execRegWr off v s
  | .bufRd sp off => Sys2Proof.Machine.execBufRd sp off s
  | .bufWr sp off data => Sys2Proof.Machine.execBufWr sp off data s
  | .iqCopy i24 q24 => Sys2Proof.Machine.execIqCopy i24 q24 s
  | .iqSkip i24 q24 => Sys2Proof.Machine.execIqSkip i24 q24 s
  | .micCopy m => Sys2Proof.Machine.execMicCopy m s
  | .micSkip m => Sys2Proof.Machine.execMicSkip m s
  | .pad p => Sys2Proof.Machine.execPad p s

end Sys2Proof.Machine
end

