-- ==== Sys2Proof/Machine/Port.lean ====
section
/-! DEFINITION. How a step takes what reaches the block: host transactions (30_encoding.md R82), the reset input and
power-on (70_reset_and_hazards.md R190), and the payload group under a walk's cursor; and where a test places an
instruction for the next step. -/

namespace Sys2Proof.Machine

/-! ## Taking an input -/

/-- The state in which an input is taken: the inputs after it, and no response yet (log 1, log 2). -/
def State.consume (s : State) (rest : List HostInput) : State := { s with inputs := rest, response := none }

/-- A host transaction: refused while `rst_i` is asserted (R190) or where the decoder rejects it (R82). -/
def takeTxn (w : BitVec 96) (s : State) : Host.Outcome State Fault Refusal :=
  if s.rstI then .refused .resetAsserted
  else
    match decodeTxn w with
    | .error e => .refused (.malformed e)
    | .ok i => exec i s

/-- A level of `rst_i` (R190): asserted, it resets the block; when it is released, the block is in the reset state. -/
def takeRst (asserted : Bool) (s : State) : State :=
  if asserted || s.rstI then applyReset { s with rstI := asserted } else s

/-- What one input does. -/
def takeInput (i : HostInput) (s : State) : Host.Outcome State Fault Refusal :=
  match i with
  | .txn w => takeTxn w s
  | .rst asserted => .next (takeRst asserted s)
  | .powerOn => .next (applyReset s)

/-- One round of a walk in progress: the payload group under the cursor, or END. -/
def stepWalk (w : Walk) (s : State) : Host.Outcome State Fault Refusal :=
  match fetchGroup w s with
  | some (.ok i) => exec i s
  | some (.error e) => .refused (.malformed e)
  | none => .next (endSubframe w s)

/-! ## Placing an instruction -/

/-- A transaction as the next one to arrive. -/
def placeTxn (w : BitVec 96) (s : State) : State :=
  { s with inputs := .txn w :: s.inputs, rstI := false, walk := none }

/-- A DECODE of a whole frame with one receiver at its first group, an IQ group at FRAME_IN:16. -/
def placeIqGroup (bs : List Byte) (s : State) : State :=
  { s with
    decCfg := 0x01#7
    frameLen := 1032#11
    frameIn := s.frameIn.writeSeq 16 bs
    walk := some Walk.start }

/-- The same DECODE at its second group, a microphone group at FRAME_IN:22. -/
def placeMicGroup (bs : List Byte) (s : State) : State :=
  { s with
    decCfg := 0x01#7
    frameLen := 1032#11
    frameIn := s.frameIn.writeSeq 22 bs
    walk := some Walk.start.afterIqCopy }

/-- A DECODE with three receivers at the end of its first sub-frame, where the padding stands at FRAME_IN:516. -/
def placePadding (bs : List Byte) (s : State) : State :=
  { s with
    decCfg := 0x03#7
    frameLen := 1032#11
    frameIn := s.frameIn.writeSeq 516 bs
    walk := some { Walk.start with cur := 500, per := 25, iqWp := 150, micWp := 50 } }

end Sys2Proof.Machine
end

