-- ==== Sys2Proof/Machine/Step.lean ====
section
/-! DEFINITION. One step of the FDC, and where the instruction it runs is placed. What they call is in Port.lean. -/

namespace Sys2Proof.Machine

/-- One step: the next host transaction or platform event, in arrival order (20_memory.md R66), with nothing to do
where none is left (42_control.md R159; log 1). A walk in progress, which no step from a walk-free state leaves
behind, goes on by one payload group (log 8). -/
def step (s : State) : Host.Outcome State Fault Refusal :=
  match s.walk with
  | some w => stepWalk w s
  | none =>
    match s.inputs with
    | [] => .next s
    | i :: rest => takeInput i (s.consume rest)

/-- `s` with the instruction of a table row's word placed where the very next step runs it (log 9): a transaction at
the head of the inputs (a command word as the REG_WR that writes it to CMD, log 1), with `rst_i` released and no
DECODE running; a payload group under the cursor of a DECODE that has come to a position which selects it. -/
def State.withFetchWord (s : State) (nbits w : Nat) : State :=
  if nbits = 64 then placeTxn (txnWord 1#2 0#3 0#20 (BitVec.ofNat 64 w)) s
  else if nbits = 96 then placeTxn (BitVec.ofNat 96 w) s
  else if nbits = 48 then placeIqGroup (groupBytes48 w) s
  else if nbits = 16 then placeMicGroup (bytes16 (BitVec.ofNat 16 w)) s
  else if nbits = 32 then placePadding (bytes32 (BitVec.ofNat 32 w)) s
  else s

end Sys2Proof.Machine
end

