-- ==== Sys2Proof/Safety.lean ====
section
/-! DEFINITION. What counts as a run that ends well (42_control.md R159), and what the host owes a command before it
issues it (70_reset_and_hazards.md R194). -/

namespace Sys2Proof.Safety

open Sys2Proof.Machine

/-- Every input that a state still holds, taken in order, stopping at a refusal. -/
def runInputs (s : State) : Host.Outcome State Fault Refusal := Host.Core.run Sys2Proof.core s.inputs.length s

/-- R159: every transaction was taken, and FAULT = 0 at the end. -/
def endsWell (s : State) : Bool :=
  match runInputs s with
  | .next t => t.inputs.isEmpty && t.fault == 0#8
  | .fault _ => false
  | .refused _ => false

/-- R194 for DECODE: a legal combination in DEC_CFG, and FRAME_LEN = 1032. -/
def readyToDecode (s : State) : Bool :=
  decide (1 ≤ s.rxCount) && decide (s.rxSel < s.rxCount) &&
  (decide (s.rate < 3) || (decide (s.rate = 3) && s.config.micDecim384 == .eight)) &&
  decide (s.declaredLen = frameBytes)

/-- R194 and R196 for DECODE: also, under STRICT_SYNC, every sync byte in place. -/
def readyFrame (s : State) : Bool :=
  readyToDecode s && (!s.config.strictSync || syncOk s.frameIn)

/-- R194 for CVT_IN and CVT_OUT: 1 ≤ B ≤ MAX_BLOCK_LEN. -/
def blockLegal (s : State) : Bool :=
  decide (1 ≤ s.block) && decide (s.block ≤ s.config.maxBlockLen)

/-- R194 for CVT_IN. -/
def readyToCvtIn (s : State) : Bool := blockLegal s && s.sinValid

/-- R194 for CVT_OUT. -/
def readyToCvtOut (s : State) : Bool := blockLegal s && s.soutValid

/-! ## The invariant of every step -/

/-- Every buffer's contents are in canonical form. -/
def buffersCanonical (s : State) : Bool :=
  s.frameIn.wf && s.iqOut.wf && s.micOut.wf && s.cvtIn.wf && s.dspIn.wf && s.dspOut.wf && s.audioOut.wf

/-- No buffer holds anything at or beyond its size (20_memory.md R50). -/
def buffersSized (s : State) : Bool :=
  s.frameIn.below (s.sizeOf .frameIn) && s.iqOut.below (s.sizeOf .iqOut) && s.micOut.below (s.sizeOf .micOut) &&
  s.cvtIn.below (s.sizeOf .cvtIn) && s.dspIn.below (s.sizeOf .dspIn) && s.dspOut.below (s.sizeOf .dspOut) &&
  s.audioOut.below (s.sizeOf .audioOut)

/-- The pairs (IQ_COUNT, MIC_COUNT) that reset or a completed DECODE leaves (10_state.md R31, 40_decode.md R116). -/
def legalCounts : List (Nat × Nat) :=
  [(0, 0), (126, 126), (126, 64), (126, 32), (126, 16), (72, 72), (72, 36), (72, 18), (72, 10),
   (50, 50), (50, 26), (50, 14), (50, 8)]

/-- What every state between two steps has: a legal configuration, canonical and sized buffers, a fault code of
60_exceptions.md R170, counts of one DECODE, and no DECODE half done (20_memory.md R61). -/
def inv (s : State) : Bool :=
  s.config.legal && buffersCanonical s && buffersSized s && decide (s.fault.toNat ≤ 9) &&
  legalCounts.contains (s.iqCount.toNat, s.micCount.toNat) && s.walk.isNone

end Sys2Proof.Safety
end

