-- ==== Sys2Proof/Certificates/Slice0/Obligations.lean ====
section
/-! DEFINITION. The statements for the provers. Numbers in them are the spec's own (30_encoding.md R71, R76;
10_state.md R21), not the model's names for them, where that keeps a statement independent of the model. -/

open Sys2Proof Sys2Proof.Machine Sys2Proof.Safety

/-! ## Words the statements use -/

namespace Sys2Proof.Claims

/-- P(N) of 30_encoding.md R73. -/
def period (n : Nat) : Nat := 6 * n + 2

/-- G(N) of R76. -/
def wholePeriods (n : Nat) : Nat := 504 / (6 * n + 2)

/-- ceil(G(N) / D), the microphone groups copied in a sub-frame (40_decode.md R115). -/
def micGroups (n d : Nat) : Nat := (wholePeriods n + d - 1) / d

/-- RX_COUNT, DEC_CFG[1:0] (10_state.md R25). -/
def cfgN (s : State) : Nat := s.decCfg.toNat % 4

/-- RX_SEL, DEC_CFG[3:2]. -/
def cfgSel (s : State) : Nat := s.decCfg.toNat / 4 % 4

/-- RATE, DEC_CFG[6:4]. -/
def cfgRate (s : State) : Nat := s.decCfg.toNat / 16

/-- The configuration and the frame length that DECODE accepts (40_decode.md R101). -/
def decodeLegal (s : State) : Prop :=
  1 ≤ cfgN s ∧ cfgSel s < cfgN s ∧ (cfgRate s < 3 ∨ cfgRate s = 3 ∧ s.config.micDecim384 = .eight) ∧
  s.frameLen = 1032#11

/-- The nine sync bytes of R102. -/
def syncInPlace (m : Memory 8) : Prop :=
  m.read 0 = 0xEF#8 ∧ m.read 1 = 0xFE#8 ∧ m.read 2 = 0x01#8 ∧
  m.read 8 = 0x7F#8 ∧ m.read 9 = 0x7F#8 ∧ m.read 10 = 0x7F#8 ∧
  m.read 520 = 0x7F#8 ∧ m.read 521 = 0x7F#8 ∧ m.read 522 = 0x7F#8

/-- 1 ≤ B ≤ MAX_BLOCK_LEN (41_convert.md R130). -/
def blockInRange (s : State) : Prop := 1 ≤ s.blockLen.toNat ∧ s.blockLen.toNat ≤ s.config.maxBlockLen

/-- sext_24(be(...)) of the 3 bytes at an offset of CVT_IN (41_convert.md R131), as an integer. -/
def sample24 (m : Memory 8) (off : Nat) : Int :=
  let u := 65536 * (m.read off).toNat + 256 * (m.read (off + 1)).toNat + (m.read (off + 2)).toNat
  if u < 2 ^ 23 then (u : Int) else (u : Int) - 2 ^ 24

/-- The rational number a finite pattern stands for (00_scope.md R13). -/
def value : F64 → ℚ
  | .nan => 0
  | .inf _ => 0
  | .finite neg m e => (if neg then -1 else 1) * (m : ℚ) * (2 : ℚ) ^ e

/-- Is it a finite number? -/
def isFinite (b : BitVec 64) : Prop := ∃ neg m e, f64 b = .finite neg m e

/-- Is it an infinity? -/
def isInfinite (b : BitVec 64) : Prop := ∃ neg, f64 b = .inf neg

/-- The rational number a 64-bit pattern stands for, where it is finite. -/
def valueOf (b : BitVec 64) : ℚ := value (f64 b)

/-- Every stored register, flag, count and buffer at its reset value (70_reset_and_hazards.md R191, R192), read the
way the model reads them, and no DECODE running. -/
def atResetValues (t : State) : Prop :=
  t.fault = 0#8 ∧ t.sinValid = false ∧ t.soutValid = false ∧ t.decCfg = 0#7 ∧ t.frameLen = 0#11 ∧
  t.blockLen = 0#16 ∧ t.scaleIn = 0#64 ∧ t.scaleOut = 0#64 ∧ t.iqCount = 0#16 ∧ t.micCount = 0#16 ∧
  (∀ sp off, t.readSpace sp off = 0#64) ∧ t.walk = none

/-- Does taking this input reset the block (R190)? A RESET command, an asserted or released `rst_i`, or power-on. -/
def resets (s : State) : HostInput → Prop
  | .txn w => decodeTxn w = .ok (.regWr 0x00#20 0xF#64)
  | .rst asserted => asserted = true ∨ s.rstI = true
  | .powerOn => True

/-- An instruction that is a RESET: the command word, or its write to CMD. -/
def isReset (i : Instr) : Prop := i = .reset ∨ i = .regWr 0x00#20 0xF#64

/-- Nothing but the seven buffers differs. -/
def sameButBuffers (s t : State) : Prop :=
  t = { s with
    frameIn := t.frameIn, iqOut := t.iqOut, micOut := t.micOut, cvtIn := t.cvtIn
    dspIn := t.dspIn, dspOut := t.dspOut, audioOut := t.audioOut }

end Sys2Proof.Claims

open Sys2Proof.Claims

/-! ## Encoding -/

/-- Decoding what the encoder gives for a well-formed instruction gives the instruction back, with every operand at
every value (30_encoding.md R79, R81, R82). A payload group's kind is given by its position (R78). -/
def Obligations.DecodeEncodeRoundTrip : Prop :=
  ∀ (maxB : Nat) (i : Instr), i.wellFormed maxB = true → decode i.groupKind (encode i) = .ok i

/-- The other direction for host transactions (R82): a word that decodes is the word the encoder gives, but for a
read's DATA, which is ignored. So no two words of different fields stand for one transaction. -/
def Obligations.TransactionWordsAreUnique : Prop :=
  ∀ (w : BitVec 96) (i : Instr), decodeTxn w = .ok i →
    ((∃ off v, i = .regWr off v) ∨ (∃ sp off v, i = .bufWr sp off v)) ∧ encode i = .transaction w ∨
    ((∃ off, i = .regRd off) ∨ (∃ sp off, i = .bufRd sp off)) ∧
      encode i = .transaction (0#64 ++ w.extractLsb' 0 32)

/-- R81: the five command words by their full 64 bits; every other word, those with OP 0x4 to 0xE and those with a
bit of [63:4] among them, is ILLEGAL and raises ILLEGAL_CMD. -/
def Obligations.CommandWordsMatchInFull : Prop :=
  decodeCommand 0x0000000000000000#64 = .nop ∧ decodeCommand 0x0000000000000001#64 = .decode ∧
  decodeCommand 0x0000000000000002#64 = .cvtIn ∧ decodeCommand 0x0000000000000003#64 = .cvtOut ∧
  decodeCommand 0x000000000000000F#64 = .reset ∧
  (∀ w : BitVec 64, (16 ≤ w.toNat ∨ 4 ≤ w.toNat ∧ w.toNat ≤ 0xE) →
    decodeCommand w = .illegal w ∧
      ∀ s : State, s.fault = 0#8 → exec (.illegal w) s = .next { s with fault := 0x01#8 })

/-- Words written out from R82's and R79's fields decode to the instructions they stand for: a sanity check. -/
def Obligations.WrittenOutWordsDecode : Prop :=
  decodeTxn 0x000000000000000100001001#96 = .ok (.regWr 0x10#20 1#64) ∧
  decodeTxn 0x000000000000000000000800#96 = .ok (.regRd 0x08#20) ∧
  decodeTxn 0x00000000000000AA0002F30B#96 = .ok (.bufWr .iqOut 755#20 0xAA#64) ∧
  decodeTxn 0x000000000000000000000016#96 = .ok (.bufRd .dspIn 0#20) ∧
  decodeTxn 0x000000000000000000000020#96 = .error .reservedBits ∧
  decodeGroup .iqCopy [0x7F#8, 0xFF#8, 0xFF#8, 0x80#8, 0x00#8, 0x00#8] = .ok (.iqCopy 0x7FFFFF#24 0x800000#24) ∧
  decodeGroup .micSkip [0x11#8, 0x22#8] = .ok (.micSkip 0x1122#16) ∧
  decodeCommand 0x10#64 = .illegal 0x10#64

/-! ## Steps -/

/-- A step takes the transaction at the head of the inputs and runs the instruction its 96 bits decode to, with the
inputs moved on and the response of the transaction before cleared (the queue and the response are the model's: log
1, log 2). -/
def Obligations.StepRunsDecodedTransaction : Prop :=
  ∀ (s : State) (w : BitVec 96) (rest : List HostInput) (i : Instr),
    s.walk = none → s.rstI = false → s.inputs = .txn w :: rest → decodeTxn w = .ok i →
      step s = exec i { s with inputs := rest, response := none }

/-- A step of a walk in progress runs the payload group that the position selects, decoded from FRAME_IN at base +
cur, and at END goes on (the stepwise walk is the model's: log 8). -/
def Obligations.StepRunsPayloadGroup : Prop :=
  ∀ (s : State) (w : Walk), s.walk = some w →
    (∀ k, (s.walkState w).group = some k →
      ∃ i, decodeGroup k (s.frameIn.readSeq (16 + 512 * w.sf + w.cur) k.bytes) = .ok i ∧ step s = exec i s) ∧
    ((s.walkState w).group = none → step s = .next (endSubframe w s))

/-- Which transactions a step refuses (R82): reserved bits, a REG kind with a space, a BUF kind without one, a bad
register offset, a buffer offset at or beyond the size; every other is taken. -/
def Obligations.RefusedTransactions : Prop :=
  ∀ (s : State) (w : BitVec 96) (rest : List HostInput),
    s.walk = none → s.rstI = false → s.inputs = .txn w :: rest →
      let kind := w.toNat % 4
      let space := w.toNat / 4 % 8
      let off := w.toNat / 256 % 2 ^ 20
      let bad := w.toNat / 32 % 8 ≠ 0 ∨ w.toNat / 2 ^ 28 % 16 ≠ 0 ∨
        (kind < 2 ∧ (space ≠ 0 ∨ off % 8 ≠ 0 ∨ 0x78 < off)) ∨
        (2 ≤ kind ∧ (space = 0 ∨
          (space = 1 ∧ 1032 ≤ off) ∨ (space = 2 ∧ 756 ≤ off) ∨ (space = 3 ∧ 252 ≤ off) ∨
          (space = 4 ∧ 6 * s.config.maxBlockLen ≤ off) ∨ (space = 5 ∧ 2 * s.config.maxBlockLen ≤ off) ∨
          (space = 6 ∧ 2 * s.config.maxBlockLen ≤ off) ∨ (space = 7 ∧ 4 * s.config.maxBlockLen ≤ off)))
      (bad → ∃ r, step s = .refused r) ∧ (¬bad → ∃ t, step s = .next t)

/-- R190: power-on and the reset input have the RESET command's effect, in one step; while `rst_i` is asserted every
transaction is refused; when it is released the block is in the reset state. -/
def Obligations.ResetSourcesAgree : Prop :=
  ∀ (s : State) (rest : List HostInput), s.walk = none →
    (∃ t, exec .reset s = .next t ∧ atResetValues t) ∧
    (s.inputs = .powerOn :: rest → ∃ t, step s = .next t ∧ atResetValues t ∧ t.inputs = rest) ∧
    (s.inputs = .rst true :: rest →
      ∃ t, step s = .next t ∧ atResetValues t ∧ t.rstI = true ∧ t.inputs = rest) ∧
    (s.rstI = true → s.inputs = .rst false :: rest →
      ∃ t, step s = .next t ∧ atResetValues t ∧ t.rstI = false ∧ t.inputs = rest) ∧
    (∀ w, s.rstI = true → s.inputs = .txn w :: rest → step s = .refused .resetAsserted)

/-- With nothing left to take, the block has no step of its own: nothing changes (R159; that such a step answers the
same state, and is no refusal, is the model's choice: log 1). -/
def Obligations.IdleStepChangesNothing : Prop :=
  ∀ s : State, s.walk = none → s.inputs = [] → step s = .next s

/-- An instruction placed with `withFetchWord` is the next that runs: a transaction's word, a command's as the write
to CMD, and a payload group's, which completes there; placing a group changes DEC_CFG, FRAME_LEN, FRAME_IN and the
walk alone (the placing is the model's choice: log 9). -/
def Obligations.PlacedWordRunsNext : Prop :=
  ∀ (s : State) (w : BitVec 96) (i : Instr) (v : BitVec 64),
    (decodeTxn w = .ok i →
      step (s.withFetchWord 96 w.toNat) = exec i { s with rstI := false, walk := none, response := none }) ∧
    step (s.withFetchWord 64 v.toNat) =
      exec (decodeCommand v) { s with rstI := false, walk := none, response := none } ∧
    (s.frameIn.wf = true →
      ∀ (g : Nat) (p : Nat × Instr),
        p ∈ [(48, Instr.iqCopy (BitVec.ofNat 24 (g / 2 ^ 24)) (BitVec.ofNat 24 g)), (16, .micCopy (BitVec.ofNat 16 g)),
          (32, .pad (BitVec.ofNat 32 g))] →
        let u := s.withFetchWord p.1 g
        decodeTableWord p.1 g = some p.2 ∧ step u = exec p.2 u ∧ (∃ t, exec p.2 u = .next t ∧ t.fault = s.fault) ∧
          u = { s with decCfg := u.decCfg, frameLen := u.frameLen, frameIn := u.frameIn, walk := u.walk })

/-! ## Control commands and faults -/

/-- R150. -/
def Obligations.NopChangesNothing : Prop :=
  ∀ s : State, exec .nop s = .next s ∧ exec (.regWr 0x00#20 0x0#64) s = .next s

/-- R151 with R192: RESET, faulted or not, leaves every register, flag, count and buffer at its reset value, and the
constant PARAMS as it was (R191). A RESET word with a bit of [63:4] set is ILLEGAL, and ignored while faulted. -/
def Obligations.ResetClearsEverything : Prop :=
  ∀ s : State,
    (∃ t, exec .reset s = .next t ∧ atResetValues t ∧ t.readReg .params = s.readReg .params) ∧
    (∀ v : BitVec 64, v.toNat % 16 = 0xF → 16 ≤ v.toNat →
      decodeCommand v = .illegal v ∧ (s.fault ≠ 0#8 → exec (.regWr 0x00#20 v) s = .next s))

/-- What a RESET leaves alone (the model's choice: log 10): the configuration, the reset pin, the inputs, the response
and the count of NaNs drawn are not the block's to clear. -/
def Obligations.ResetKeepsTheHostSide : Prop :=
  ∀ s : State, ∃ t, exec .reset s = .next t ∧ t.config = s.config ∧ t.rstI = s.rstI ∧ t.inputs = s.inputs ∧
    t.response = s.response ∧ t.nanDraws = s.nanDraws

/-- R191: what reset leaves, and that after it every command but NOP and RESET faults: DECODE with CFG_RX_COUNT,
both conversions with BLOCK_SIZE. -/
def Obligations.CommandsAfterReset : Prop :=
  ∀ s t : State, exec .reset s = .next t →
    atResetValues t ∧ t.faultO = false ∧ t.readReg .cmd = 0#64 ∧ t.readReg .reserved = 0#64 ∧
    t.readReg .params = s.readReg .params ∧
    exec .decode t = .next { t with fault := 0x02#8 } ∧ exec .cvtIn t = .next { t with fault := 0x08#8 } ∧
    exec .cvtOut t = .next { t with fault := 0x08#8 } ∧ exec .nop t = .next t ∧ exec .reset t = .next t ∧
    (∀ w, isCommandWord w = false → exec (.illegal w) t = .next { t with fault := 0x01#8 })

/-- R152, with the write to CMD that R154 makes a command. -/
def Obligations.IllegalRaisesIllegalCmd : Prop :=
  ∀ (w : BitVec 64) (s : State), isCommandWord w = false →
    (s.fault = 0#8 → exec (.illegal w) s = .next { s with fault := 0x01#8 } ∧
      exec (.regWr 0x00#20 w) s = .next { s with fault := 0x01#8 }) ∧
    (s.fault ≠ 0#8 → exec (.illegal w) s = .next s ∧ exec (.regWr 0x00#20 w) s = .next s)

/-- R153: while FAULT is not 0 a write of v to CMD changes nothing unless v is RESET's word, and register and buffer
transactions are still taken. -/
def Obligations.FaultedBlockIgnoresCommands : Prop :=
  ∀ s : State, s.fault ≠ 0#8 →
    (∀ v : BitVec 64, v ≠ 0xF#64 → exec (.regWr 0x00#20 v) s = .next s) ∧
    exec .decode s = .next s ∧ exec .cvtIn s = .next s ∧ exec .cvtOut s = .next s ∧
    (∃ t, exec (.regWr 0x00#20 0xF#64) s = .next t ∧ t.fault = 0#8) ∧
    (∀ off v, regOffsetOk off = true → (∃ t, exec (.regWr off v) s = .next t) ∧ ∃ t, exec (.regRd off) s = .next t) ∧
    (∀ sp off v, off.toNat < s.sizeOf sp →
      (∃ t, exec (.bufWr sp off v) s = .next t) ∧ ∃ t, exec (.bufRd sp off) s = .next t)

/-- R174: `fault_o` is 1 exactly where FAULT is not 0. R173: FAULT keeps its code over every step until a reset, which
clears it; so `fault_o` falls only there. -/
def Obligations.FaultIsStickyUntilReset : Prop :=
  (∀ s : State, s.faultO = true ↔ s.fault ≠ 0#8) ∧
  (∀ s t : State, s.walk = none → s.fault ≠ 0#8 → step s = .next t →
    t.fault = s.fault ∨ t.fault = 0#8 ∧ ∃ i rest, s.inputs = i :: rest ∧ resets s i)

/-- R171, R174 with R112: a step that raises a fault was a write to CMD, changes nothing but FAULT (and takes its
input), and the code is one of R170's, never GEOMETRY's. -/
def Obligations.FaultsArePrecise : Prop :=
  ∀ s t : State, s.walk = none → s.fault = 0#8 → step s = .next t → t.fault ≠ 0#8 →
    ∃ w rest v, s.inputs = .txn w :: rest ∧ decodeTxn w = .ok (.regWr 0x00#20 v) ∧ v ≠ 0x0#64 ∧ v ≠ 0xF#64 ∧
      t = { s with fault := t.fault, inputs := rest, response := none } ∧
      t.fault ∈ [0x01#8, 0x02#8, 0x03#8, 0x04#8, 0x05#8, 0x06#8, 0x08#8, 0x09#8]

/-! ## DECODE -/

/-- R101, R102 in the order of R172: the first check that fails gives the code, and nothing else changes; where none
fails DECODE raises no fault. -/
def Obligations.DecodeFaultsInOrder : Prop :=
  ∀ s : State, s.fault = 0#8 →
    (cfgN s = 0 → exec .decode s = .next { s with fault := 0x02#8 }) ∧
    (1 ≤ cfgN s → cfgN s ≤ cfgSel s → exec .decode s = .next { s with fault := 0x03#8 }) ∧
    (1 ≤ cfgN s → cfgSel s < cfgN s → (3 < cfgRate s ∨ cfgRate s = 3 ∧ s.config.micDecim384 = .refuse) →
      exec .decode s = .next { s with fault := 0x04#8 }) ∧
    (1 ≤ cfgN s → cfgSel s < cfgN s → (cfgRate s < 3 ∨ cfgRate s = 3 ∧ s.config.micDecim384 = .eight) →
      s.frameLen ≠ 1032#11 → exec .decode s = .next { s with fault := 0x05#8 }) ∧
    (decodeLegal s → s.config.strictSync = true → ¬syncInPlace s.frameIn →
      exec .decode s = .next { s with fault := 0x06#8 }) ∧
    (decodeLegal s → (s.config.strictSync = true → syncInPlace s.frameIn) →
      ∃ t, exec .decode s = .next t ∧ t.fault = 0#8)

/-- The closed form (R115) with what is written and what is not (R113, R114) and the counts: the selected receiver's
groups and every D-th microphone group of both sub-frames, in order, and nothing else; no copied offset is above 1031,
and the walk comes to END in each sub-frame, with the cursor at 504. -/
def Obligations.DecodeClosedForm : Prop :=
  ∀ s : State, s.fault = 0#8 → decodeLegal s → (s.config.strictSync = true → syncInPlace s.frameIn) →
    s.iqOut.wf = true → s.micOut.wf = true →
      let n := cfgN s
      let d := 2 ^ cfgRate s
      let g := wholePeriods n
      let c := micGroups n d
      ∃ t, exec .decode s = .next t ∧
        t = { s with iqOut := t.iqOut, micOut := t.micOut, iqCount := t.iqCount, micCount := t.micCount, walk := none } ∧
        (∀ sf p j, sf < 2 → p < g → j < 6 →
          t.iqOut.read (6 * (g * sf + p) + j) = s.frameIn.read (16 + 512 * sf + period n * p + 6 * cfgSel s + j)) ∧
        (∀ sf p j, sf < 2 → p < g → p % d = 0 → j < 2 →
          t.micOut.read (2 * (c * sf + p / d) + j) = s.frameIn.read (16 + 512 * sf + period n * p + 6 * n + j)) ∧
        t.iqCount.toNat = 2 * g ∧ t.micCount.toNat = 2 * c ∧
        (∀ a, 6 * t.iqCount.toNat ≤ a → t.iqOut.read a = s.iqOut.read a) ∧
        (∀ a, 2 * t.micCount.toNat ≤ a → t.micOut.read a = s.micOut.read a) ∧
        528 + period n * (g - 1) + 6 * n + 1 ≤ 1031 ∧
        (∀ sf, sf < 2 → ∃ k w, (runWalk k { s with walk := some Walk.start }).walk = some w ∧ w.sf = sf ∧
          s.walkState w = .done) ∧
        (∀ k w, (runWalk k { s with walk := some Walk.start }).walk = some w → s.walkState w = .done → w.cur = 504)

/-- The table of R116. -/
def Obligations.DecodeCounts : Prop :=
  ∀ s : State, s.fault = 0#8 → decodeLegal s → (s.config.strictSync = true → syncInPlace s.frameIn) →
    ∃ t, exec .decode s = .next t ∧
      t.iqCount.toNat = 2 * wholePeriods (cfgN s) ∧
      t.micCount.toNat = 2 * micGroups (cfgN s) (2 ^ cfgRate s) ∧
      (cfgN s = 1 → t.iqCount = 126#16 ∧
        t.micCount = [126#16, 64#16, 32#16, 16#16].getD (cfgRate s) 0#16) ∧
      (cfgN s = 2 → t.iqCount = 72#16 ∧ t.micCount = [72#16, 36#16, 18#16, 10#16].getD (cfgRate s) 0#16) ∧
      (cfgN s = 3 → t.iqCount = 50#16 ∧ t.micCount = [50#16, 26#16, 14#16, 8#16].getD (cfgRate s) 0#16)

/-- R112: once the configuration checks have passed no access of the walk is out of bounds, so GEOMETRY is never
raised. -/
def Obligations.GeometryNeverRaised : Prop :=
  ∀ s : State, (decodeLegal s → boundsCheck s = none) ∧
    (s.fault = 0#8 → ∃ t, exec .decode s = .next t ∧ t.fault ≠ 0x07#8)

/-- R117 with R110 and R102: two frames that agree on the whole periods of both payloads, and under STRICT_SYNC on
the nine sync bytes, give the same outcome: header, endpoint, sequence, CC and padding bytes are never read. -/
def Obligations.DecodeIgnoresOtherFrameBytes : Prop :=
  ∀ (s : State) (f : Memory 8),
    (∀ sf c, sf < 2 → c < wholePeriods (cfgN s) * period (cfgN s) →
      f.read (16 + 512 * sf + c) = s.frameIn.read (16 + 512 * sf + c)) →
    (s.config.strictSync = true → ∀ a ∈ [0, 1, 2, 8, 9, 10, 520, 521, 522], f.read a = s.frameIn.read a) →
      ∃ t, exec .decode s = .next t ∧ exec .decode { s with frameIn := f } = .next { t with frameIn := f }

/-- R100: running DECODE again on the same frame and configuration gives the same result. -/
def Obligations.DecodeTwiceIsDecodeOnce : Prop :=
  ∀ s : State, s.iqOut.wf = true → s.micOut.wf = true →
    ∃ t, exec .decode s = .next t ∧ exec .decode t = .next t

/-- R61 and R104: the one atomic step of DECODE leaves exactly the state that taking the walk's payload groups one
step at a time leaves (the stepwise walk is the model's: log 8). -/
def Obligations.AtomicDecodeIsStepwiseWalk : Prop :=
  ∀ s : State, s.fault = 0#8 → decodeLegal s → (s.config.strictSync = true → syncInPlace s.frameIn) →
    ∃ k, k ≤ 506 ∧ Host.Core.run Sys2Proof.core k { s with walk := some Walk.start } = exec .decode s

/-- R38 with R104 to R109: while the walk goes on its registers stay in R38's ranges, the cursor is where the period
and the slot put it or at the end of the payload, and the microphone phase of period p is p mod D. -/
def Obligations.WalkRegistersStayInRange : Prop :=
  ∀ (s : State) (k : Nat) (w : Walk), decodeLegal s →
    (runWalk k { s with walk := some Walk.start }).walk = some w →
      w.sf ≤ 1 ∧ w.cur ≤ 504 ∧ w.slot ≤ cfgN s ∧ w.mphase < 2 ^ cfgRate s ∧ w.per ≤ wholePeriods (cfgN s) ∧
      w.iqWp ≤ 756 ∧ w.micWp ≤ 252 ∧ w.mphase = w.per % 2 ^ cfgRate s ∧
      (w.cur = period (cfgN s) * w.per + 6 * w.slot ∨ w.per = wholePeriods (cfgN s) ∧ w.cur = 504)

/-! ## Payload groups -/

/-- R106: where a DECODE's position selects it, IQ_COPY stores its 6 bytes verbatim at IQ_OUT:iq_wp, the 3 I bytes
first, and advances iq_wp and cur by 6 and slot by 1; every other byte, register and flag stays. -/
def Obligations.IqCopyStoresGroup : Prop :=
  ∀ (s : State) (w : Walk) (i q : BitVec 24), s.walk = some w →
    w.per ≠ wholePeriods (cfgN s) → w.slot < cfgN s → w.slot = cfgSel s →
    16 + 512 * w.sf + w.cur + 6 ≤ s.frameLen.toNat → 16 + 512 * w.sf + w.cur + 6 ≤ 1032 → w.iqWp + 6 ≤ 756 →
    s.iqOut.wf = true →
      ∃ t, exec (.iqCopy i q) s = .next t ∧
        t = { s with iqOut := t.iqOut
                     walk := some { w with iqWp := w.iqWp + 6, cur := w.cur + 6, slot := w.slot + 1 } } ∧
        t.iqOut.readSeq w.iqWp 6 = [i.extractLsb' 16 8, i.extractLsb' 8 8, i.extractLsb' 0 8,
          q.extractLsb' 16 8, q.extractLsb' 8 8, q.extractLsb' 0 8] ∧
        (∀ a, a < w.iqWp ∨ w.iqWp + 6 ≤ a → t.iqOut.read a = s.iqOut.read a)

/-- R106 and R108 over FRAME_IN: the step of a walk copies the group at FRAME_IN:base + cur verbatim, 6 bytes to
IQ_OUT in state IQ and 2 bytes to MIC_OUT in state M. -/
def Obligations.WalkCopiesFromFrame : Prop :=
  ∀ (s : State) (w : Walk), s.walk = some w → w.per ≠ wholePeriods (cfgN s) → s.iqOut.wf = true → s.micOut.wf = true →
    (w.slot < cfgN s → w.slot = cfgSel s → 16 + 512 * w.sf + w.cur + 6 ≤ s.frameLen.toNat →
      16 + 512 * w.sf + w.cur + 6 ≤ 1032 → w.iqWp + 6 ≤ 756 →
      ∃ t, step s = .next t ∧
        t.iqOut.readSeq w.iqWp 6 = s.frameIn.readSeq (16 + 512 * w.sf + w.cur) 6 ∧
        (∀ a, a < w.iqWp ∨ w.iqWp + 6 ≤ a → t.iqOut.read a = s.iqOut.read a) ∧
        t = { s with iqOut := t.iqOut
                     walk := some { w with iqWp := w.iqWp + 6, cur := w.cur + 6, slot := w.slot + 1 } }) ∧
    (cfgN s ≤ w.slot → w.mphase = 0 → 16 + 512 * w.sf + w.cur + 2 ≤ s.frameLen.toNat →
      16 + 512 * w.sf + w.cur + 2 ≤ 1032 → w.micWp + 2 ≤ 252 →
      ∃ t, step s = .next t ∧
        t.micOut.readSeq w.micWp 2 = s.frameIn.readSeq (16 + 512 * w.sf + w.cur) 2 ∧
        (∀ a, a < w.micWp ∨ w.micWp + 2 ≤ a → t.micOut.read a = s.micOut.read a) ∧
        t = { s with micOut := t.micOut
                     walk := some { w with
                       micWp := w.micWp + 2, cur := w.cur + 2, slot := 0
                       mphase := 1 % 2 ^ cfgRate s, per := w.per + 1 } })

/-- R107: IQ_SKIP advances cur and slot, and nothing is read or written, whatever bytes the group has. -/
def Obligations.IqSkipAdvances : Prop :=
  ∀ (s : State) (w : Walk) (i q : BitVec 24), s.walk = some w →
    w.per ≠ wholePeriods (cfgN s) → w.slot < cfgN s → w.slot ≠ cfgSel s →
      exec (.iqSkip i q) s = .next { s with walk := some { w with cur := w.cur + 6, slot := w.slot + 1 } }

/-- R108: MIC_COPY stores its 2 bytes verbatim at MIC_OUT:mic_wp and advances the decimation cycle and the period. -/
def Obligations.MicCopyStoresGroup : Prop :=
  ∀ (s : State) (w : Walk) (m : BitVec 16), s.walk = some w →
    w.per ≠ wholePeriods (cfgN s) → cfgN s ≤ w.slot → w.mphase = 0 →
    16 + 512 * w.sf + w.cur + 2 ≤ s.frameLen.toNat → 16 + 512 * w.sf + w.cur + 2 ≤ 1032 → w.micWp + 2 ≤ 252 →
    s.micOut.wf = true →
      ∃ t, exec (.micCopy m) s = .next t ∧
        t = { s with micOut := t.micOut
                     walk := some { w with
                       micWp := w.micWp + 2, cur := w.cur + 2, slot := 0
                       mphase := (w.mphase + 1) % 2 ^ cfgRate s, per := w.per + 1 } } ∧
        t.micOut.readSeq w.micWp 2 = [m.extractLsb' 8 8, m.extractLsb' 0 8] ∧
        (∀ a, a < w.micWp ∨ w.micWp + 2 ≤ a → t.micOut.read a = s.micOut.read a)

/-- R109: MIC_SKIP advances the decimation cycle and the period, and nothing is read or written. -/
def Obligations.MicSkipAdvances : Prop :=
  ∀ (s : State) (w : Walk) (m : BitVec 16), s.walk = some w →
    w.per ≠ wholePeriods (cfgN s) → cfgN s ≤ w.slot → w.mphase ≠ 0 →
      exec (.micSkip m) s = .next { s with walk := some { w with
        cur := w.cur + 2, slot := 0, mphase := (w.mphase + 1) % 2 ^ cfgRate s, per := w.per + 1 } }

/-- R110: PAD moves the cursor to the end of the payload, reading nothing. -/
def Obligations.PadSkipsToEnd : Prop :=
  ∀ (s : State) (w : Walk) (p : BitVec 32), s.walk = some w →
    w.per = wholePeriods (cfgN s) → w.cur < 504 →
      exec (.pad p) s = .next { s with walk := some { w with cur := 504 } }

/-- R118: the state sequence of one period for each legal (N, sel), with the microphone entry by the phase. -/
def Obligations.PeriodStateTable : Prop :=
  ∀ w : Walk, ∀ n sel, 1 ≤ n → n ≤ 3 → sel < n → w.per ≠ wholePeriods n →
    ([0, 1, 2].map (fun slot => classify n sel { w with slot := slot })).take n =
      (if n = 1 then [.iq]
       else if n = 2 then (if sel = 0 then [.iq, .siq 1] else [.siq 1, .iq])
       else if sel = 0 then [.iq, .siq 1, .siq 2]
       else if sel = 1 then [.siq 1, .iq, .siq 2]
       else [.siq 1, .siq 2, .iq]) ∧
    classify n sel { w with slot := n, mphase := 0 } = .mic ∧
    (∀ j, 1 ≤ j → classify n sel { w with slot := n, mphase := j } = .sm j)

/-- Where a payload group does not complete (the model's choice for states no run reaches: log 8): with no DECODE
running, or a kind that the position does not select, it is refused; a copy that would leave FRAME_IN or its buffer
raises GEOMETRY (R112) and stores nothing. -/
def Obligations.GroupsStopOutsideTheirPosition : Prop :=
  ∀ (s : State) (i q : BitVec 24) (m : BitVec 16) (p : BitVec 32),
    (s.walk = none → ∀ g ∈ [Instr.iqCopy i q, .iqSkip i q, .micCopy m, .micSkip m, .pad p],
      exec g s = .refused .noDecodeRunning) ∧
    (∀ w, s.walk = some w → ∀ g ∈ [Instr.iqCopy i q, .iqSkip i q, .micCopy m, .micSkip m, .pad p],
      (s.walkState w).group ≠ some g.groupKind → exec g s = .refused .groupNotSelected) ∧
    (∀ w, s.walk = some w → (s.walkState w).group = some .iqCopy →
      (s.frameLen.toNat < 16 + 512 * w.sf + w.cur + 6 ∨ 1032 < 16 + 512 * w.sf + w.cur + 6 ∨ 756 < w.iqWp + 6) →
      exec (.iqCopy i q) s = .next { s with fault := 0x07#8, walk := none }) ∧
    (∀ w, s.walk = some w → (s.walkState w).group = some .micCopy →
      (s.frameLen.toNat < 16 + 512 * w.sf + w.cur + 2 ∨ 1032 < 16 + 512 * w.sf + w.cur + 2 ∨ 252 < w.micWp + 2) →
      exec (.micCopy m) s = .next { s with fault := 0x07#8, walk := none })

/-! ## The converter -/

/-- R130, R133 and R138: CVT_IN writes DSP_IN[0 .. 2B-1], I at 2k and Q at 2k+1: cvt_in of the big-endian 24-bit
sample, or some quiet NaN where the default product is a NaN; every other element, register and flag stays. -/
def Obligations.CvtInConvertsBlock : Prop :=
  ∀ s : State, s.fault = 0#8 → blockInRange s → s.sinValid = true → s.dspIn.wf = true →
    ∃ t, exec .cvtIn s = .next t ∧
      t = { s with dspIn := t.dspIn, nanDraws := t.nanDraws } ∧
      (∀ k c, k < s.blockLen.toNat → c < 2 →
        match cvtInValue s.config s.scaleIn (sample24 s.cvtIn (6 * k + 3 * c)) with
        | some b => t.dspIn.read (2 * k + c) = b
        | none => isQuietNaN64 (t.dspIn.read (2 * k + c)) = true) ∧
      (∀ a, 2 * s.blockLen.toNat ≤ a → t.dspIn.read a = s.dspIn.read a)

/-- R134 and R136: CVT_OUT writes AUDIO_OUT[0 .. 4B-1], each pair's two values big-endian in the order of DSP_OUT;
every other byte, register and flag stays. -/
def Obligations.CvtOutConvertsBlock : Prop :=
  ∀ s : State, s.fault = 0#8 → blockInRange s → s.soutValid = true → s.audioOut.wf = true →
    ∃ t, exec .cvtOut s = .next t ∧
      t = { s with audioOut := t.audioOut } ∧
      (∀ k c, k < s.blockLen.toNat → c < 2 →
        (t.audioOut.read (4 * k + 2 * c) ++ t.audioOut.read (4 * k + 2 * c + 1) : BitVec 16) =
          cvtOutValue s.config s.scaleOut (s.dspOut.read (2 * k + c))) ∧
      (∀ a, 4 * s.blockLen.toNat ≤ a → t.audioOut.read a = s.audioOut.read a)

/-- R130, R134 in the order of R172: a bad block length gives BLOCK_SIZE, then an unwritten scale SCALE_UNSET, and
nothing else changes. -/
def Obligations.ConversionFaultsInOrder : Prop :=
  ∀ s : State, s.fault = 0#8 →
    (¬blockInRange s → exec .cvtIn s = .next { s with fault := 0x08#8 } ∧
      exec .cvtOut s = .next { s with fault := 0x08#8 }) ∧
    (blockInRange s → s.sinValid = false → exec .cvtIn s = .next { s with fault := 0x09#8 }) ∧
    (blockInRange s → s.soutValid = false → exec .cvtOut s = .next { s with fault := 0x09#8 })

/-- R131: shift-up and shift-down gives the two's-complement value of the big-endian 24 bits, with the rule's
examples. -/
def Obligations.SignExtension24 : Prop :=
  (∀ b0 b1 b2 : Byte,
    let u := 65536 * b0.toNat + 256 * b1.toNat + b2.toNat
    sext24 b0 b1 b2 = (if u < 2 ^ 23 then (u : Int) else (u : Int) - 2 ^ 24) ∧
    -8388608 ≤ sext24 b0 b1 b2 ∧ sext24 b0 b1 b2 ≤ 8388607) ∧
  sext24 0xFF#8 0xFF#8 0xFF#8 = -1 ∧ sext24 0x00#8 0x00#8 0x01#8 = 1 ∧ sext24 0x80#8 0x00#8 0x01#8 = -8388607 ∧
  sext24 0x12#8 0x34#8 0x56#8 = 1193046 ∧ sext24 0xFE#8 0xDC#8 0xBA#8 = -74566 ∧
  sext24 0x01#8 0x02#8 0x03#8 = 66051

/-- R13 and R132: the product of two finite numbers is the binary64 nearest to the exact product, the even one of
two equally near; at 2^1024 - 2^970 and beyond it overflows to infinity; its sign is the two signs' exclusive or. A NaN
operand, and an infinity times a zero, give a NaN; an infinity times anything else gives an infinity with the exclusive
or of the signs. All this is IEEE 754's, which the spec names from general knowledge (log 11). -/
def Obligations.ProductRoundsToNearestEven : Prop :=
  (∀ a b : BitVec 64, f64 a = .nan ∨ f64 b = .nan → mulRNE a b = none) ∧
  (∀ a b : BitVec 64, isInfinite a → isFinite b → valueOf b = 0 → mulRNE a b = none ∧ mulRNE b a = none) ∧
  (∀ a b : BitVec 64, isInfinite a → isInfinite b ∨ isFinite b ∧ valueOf b ≠ 0 →
    (∃ r, mulRNE a b = some r ∧ f64 r = .inf (a.msb != b.msb)) ∧
    ∃ r, mulRNE b a = some r ∧ f64 r = .inf (a.msb != b.msb)) ∧
  (∀ a b : BitVec 64, isFinite a → isFinite b →
    ∃ r, mulRNE a b = some r ∧ r.msb = (a.msb != b.msb) ∧
      (|valueOf a * valueOf b| ≥ 2 ^ 1024 - 2 ^ 970 → f64 r = .inf (a.msb != b.msb)) ∧
      (|valueOf a * valueOf b| < 2 ^ 1024 - 2 ^ 970 →
        isFinite r ∧
        ∀ c, isFinite c →
          |valueOf r - valueOf a * valueOf b| ≤ |valueOf c - valueOf a * valueOf b| ∧
          (|valueOf r - valueOf a * valueOf b| = |valueOf c - valueOf a * valueOf b| → valueOf c ≠ valueOf r →
            r.getLsbD 0 = false)))

/-- R132: the default cvt_in is the sample's binary64, exact (R13), times the scale, rounded; with SCALE_IN = 2^-23 it
is exact for every 24-bit sample; and R130: a zero sample gives a zero with the sign of a finite scale. -/
def Obligations.CvtInExactAtPowerOfTwo : Prop :=
  (∀ (c : Config) (scale : BitVec 64) (v : Int), c.cvtInRule = .standard →
    cvtInValue c scale v = mulRNE (fp64 v) scale ∧ cvtInValue c scale v = cvtInStandard scale v) ∧
  (∀ v : Int, v.natAbs ≤ 2 ^ 53 → isFinite (fp64 v) ∧ valueOf (fp64 v) = (v : ℚ)) ∧
  (∀ v : Int, -8388608 ≤ v → v ≤ 8388607 →
    ∃ b, cvtInStandard 0x3E80000000000000#64 v = some b ∧ isFinite b ∧ valueOf b = (v : ℚ) / 2 ^ 23) ∧
  (∀ scale : BitVec 64, isFinite scale →
    cvtInStandard scale 0 = some (BitVec.ofBool scale.msb ++ 0#63))

/-- R138: the default cvt_in yields a NaN only for a NaN scale, or an infinite one and a zero sample; what is drawn is
a quiet NaN, and any quiet NaN can be drawn; cvt_out maps every NaN to 0. -/
def Obligations.NaNResults : Prop :=
  (∀ (scale : BitVec 64) (v : Int), -8388608 ≤ v → v ≤ 8388607 →
    (cvtInStandard scale v = none ↔ f64 scale = .nan ∨ (∃ neg, f64 scale = .inf neg) ∧ v = 0)) ∧
  (∀ d, isQuietNaN64 (quietNaN d) = true) ∧
  (∀ b, isQuietNaN64 b = true → ∃ d, quietNaN d = b) ∧
  (∀ scale x : BitVec 64, f64 x = .nan → cvtOutStandard scale x = 0)

/-- R135: the default cvt_out is the rounded product, saturated at 32767 and -32768 and otherwise truncated toward
zero; a NaN product gives 0; and it is what CVT_OUT stores, as 16-bit two's complement (R134). -/
def Obligations.CvtOutSaturatesAndTruncates : Prop :=
  ∀ scale x : BitVec 64,
    (∀ c : Config, c.cvtOutRule = .standard → (cvtOutValue c scale x).toInt = cvtOutStandard scale x) ∧
    (mulRNE x scale = none → cvtOutStandard scale x = 0) ∧
    (∀ y, mulRNE x scale = some y →
      (f64 y = .inf false → cvtOutStandard scale x = 32767) ∧
      (f64 y = .inf true → cvtOutStandard scale x = -32768) ∧
      (isFinite y →
        (32767 ≤ valueOf y → cvtOutStandard scale x = 32767) ∧
        (valueOf y ≤ -32768 → cvtOutStandard scale x = -32768) ∧
        (0 ≤ valueOf y → valueOf y < 32767 → cvtOutStandard scale x = ⌊valueOf y⌋) ∧
        (-32768 < valueOf y → valueOf y < 0 → cvtOutStandard scale x = ⌈valueOf y⌉))) ∧
    -32768 ≤ cvtOutStandard scale x ∧ cvtOutStandard scale x ≤ 32767

/-! ## Host transactions -/

/-- R155: what a read of each register-port offset returns; a read changes nothing but the port's response, and any
other offset is refused. -/
def Obligations.RegisterReads : Prop :=
  ∀ s : State,
    exec (.regRd 0x00#20) s = .next { s with response := some 0#64 } ∧
    exec (.regRd 0x08#20) s = .next { s with response := some (BitVec.ofNat 64
      (s.fault.toNat + 256 * s.sinValid.toNat + 512 * s.soutValid.toNat)) } ∧
    exec (.regRd 0x10#20) s = .next { s with response := some (BitVec.ofNat 64 s.decCfg.toNat) } ∧
    exec (.regRd 0x18#20) s = .next { s with response := some (BitVec.ofNat 64 s.frameLen.toNat) } ∧
    exec (.regRd 0x20#20) s = .next { s with response := some (BitVec.ofNat 64 s.blockLen.toNat) } ∧
    exec (.regRd 0x28#20) s = .next { s with response := some s.scaleIn } ∧
    exec (.regRd 0x30#20) s = .next { s with response := some s.scaleOut } ∧
    exec (.regRd 0x38#20) s = .next { s with response := some (BitVec.ofNat 64 s.iqCount.toNat) } ∧
    exec (.regRd 0x40#20) s = .next { s with response := some (BitVec.ofNat 64 s.micCount.toNat) } ∧
    exec (.regRd 0x48#20) s = .next { s with response := some (paramsWord s.config) } ∧
    (∀ off : BitVec 20, off.toNat % 8 = 0 → 0x50 ≤ off.toNat → off.toNat ≤ 0x78 →
      exec (.regRd off) s = .next { s with response := some 0#64 }) ∧
    (∀ off : BitVec 20, off.toNat % 8 ≠ 0 ∨ 0x78 < off.toNat → exec (.regRd off) s = .refused .regOffset)

/-- R33: PARAMS holds the parameters, its other bits read 0, and no instruction changes it, reset included. -/
def Obligations.ParamsHoldsConfiguration : Prop :=
  (∀ s : State, s.config.legal = true →
    (paramsWord s.config).toNat = s.config.maxBlockLen + 65536 * s.config.strictSync.toNat +
      131072 * (if s.config.micDecim384 = .refuse then 1 else 0)) ∧
  (∀ (i : Instr) (s t : State), exec i s = .next t → t.config = s.config) ∧
  (∀ s t : State, step s = .next t → t.config = s.config)

/-- R154: what a write to each register-port offset does: a command at CMD (ignored while faulted, unless RESET's
word), the stored bits elsewhere, nothing at the read-only and reserved offsets, and a refusal at any other. -/
def Obligations.RegisterWrites : Prop :=
  ∀ (s : State) (v : BitVec 64),
    exec (.regWr 0x00#20 v) s =
      (if s.fault ≠ 0#8 ∧ v ≠ 0xF#64 then .next s else exec (decodeCommand v) s) ∧
    (∃ t, exec (.regWr 0x00#20 v) s = .next t) ∧
    exec (.regWr 0x10#20 v) s = .next { s with decCfg := BitVec.ofNat 7 v.toNat } ∧
    exec (.regWr 0x18#20 v) s = .next { s with frameLen := BitVec.ofNat 11 v.toNat } ∧
    exec (.regWr 0x20#20 v) s = .next { s with blockLen := BitVec.ofNat 16 v.toNat } ∧
    exec (.regWr 0x28#20 v) s = .next { s with scaleIn := v, sinValid := true } ∧
    exec (.regWr 0x30#20 v) s = .next { s with scaleOut := v, soutValid := true } ∧
    (∀ off ∈ [0x08#20, 0x38#20, 0x40#20, 0x48#20, 0x50#20, 0x58#20, 0x60#20, 0x68#20, 0x70#20, 0x78#20],
      exec (.regWr off v) s = .next s) ∧
    (∀ off : BitVec 20, off.toNat % 8 ≠ 0 ∨ 0x78 < off.toNat → exec (.regWr off v) s = .refused .regOffset)

/-- R156: BUF_WR stores DATA[7:0] in a byte space and all of DATA in a binary64 one, at its element alone; at or
beyond the size, and with space 0, it is refused; faulted or not. -/
def Obligations.BufferWrites : Prop :=
  ∀ (s : State) (sp : Space) (off : BitVec 20) (data : BitVec 64), buffersCanonical s = true →
    (off.toNat < s.sizeOf sp →
      ∃ t, exec (.bufWr sp off data) s = .next t ∧ sameButBuffers s t ∧
        t.readSpace sp off.toNat = (if sp = .dspIn ∨ sp = .dspOut then data else (data.extractLsb' 0 8).setWidth 64) ∧
        (∀ sp' a, sp' ≠ sp ∨ a ≠ off.toNat → t.readSpace sp' a = s.readSpace sp' a)) ∧
    (s.sizeOf sp ≤ off.toNat → exec (.bufWr sp off data) s = .refused .bufOffset) ∧
    decodeTxn (txnWord 3#2 0#3 off data) = .error .bufSpace

/-- R157: BUF_RD answers the element, a byte zero-extended, and changes nothing but the port's response; refused as
BUF_WR is. -/
def Obligations.BufferReads : Prop :=
  ∀ (s : State) (off : BitVec 20),
    (∀ p : Space × Memory 8, p ∈ [(.frameIn, s.frameIn), (.iqOut, s.iqOut), (.micOut, s.micOut), (.cvtIn, s.cvtIn),
        (.audioOut, s.audioOut)] → off.toNat < s.sizeOf p.1 →
      exec (.bufRd p.1 off) s = .next { s with response := some (BitVec.ofNat 64 (p.2.read off.toNat).toNat) }) ∧
    (∀ p : Space × Memory 64, p ∈ [(.dspIn, s.dspIn), (.dspOut, s.dspOut)] → off.toNat < s.sizeOf p.1 →
      exec (.bufRd p.1 off) s = .next { s with response := some (p.2.read off.toNat) }) ∧
    (∀ sp, s.sizeOf sp ≤ off.toNat → exec (.bufRd sp off) s = .refused .bufOffset) ∧
    decodeTxn (txnWord 2#2 0#3 off 0#64) = .error .bufSpace

/-- R62: a read has no side effect, and repeated it returns the same value. -/
def Obligations.ReadsAreIdempotent : Prop :=
  ∀ (i : Instr) (s t : State), ((∃ off, i = .regRd off) ∨ ∃ sp off, i = .bufRd sp off) → exec i s = .next t →
    t = { s with response := t.response } ∧ t.response.isSome = true ∧ exec i t = .next t

/-- R34 with R25 and R27 to R30: a read after a write of a read/write register returns the bits the register has, and
0 in the reserved ones. -/
def Obligations.RegisterReadBack : Prop :=
  ∀ (s t : State) (v : BitVec 64) (p : BitVec 20 × Nat),
    p ∈ [(0x10#20, 7), (0x18#20, 11), (0x20#20, 16), (0x28#20, 64), (0x30#20, 64)] →
    exec (.regWr p.1 v) s = .next t →
      exec (.regRd p.1) t = .next { t with response := some (BitVec.ofNat 64 (v.toNat % 2 ^ p.2)) }

/-! ## The whole machine -/

/-- Every step keeps the invariant: canonical buffers within their sizes, a fault code of R170, counts of R116 and
no DECODE half done (R61). -/
def Obligations.StepKeepsInvariant : Prop :=
  ∀ s t : State, inv s = true → step s = .next t → inv t = true

/-- The state after reset meets the invariant. -/
def Obligations.ResetMeetsInvariant : Prop := inv State.reset = true

/-- R24: SIN_VALID and SOUT_VALID change only by a write to their scale register, which sets them, and by a reset,
which clears them. -/
def Obligations.ScaleFlagsHaveOneWriter : Prop :=
  ∀ (i : Instr) (s t : State), exec i s = .next t →
    (t.sinValid ≠ s.sinValid → (t.sinValid = true ∧ ∃ v, i = .regWr 0x28#20 v) ∨ t.sinValid = false ∧ isReset i) ∧
    (t.soutValid ≠ s.soutValid → (t.soutValid = true ∧ ∃ v, i = .regWr 0x30#20 v) ∨ t.soutValid = false ∧ isReset i)

/-- R50's columns "block writes" and "host access", with R31 and R32: which instructions can change each buffer and
the counts. A buffer that no block command writes changes only by the host's BUF_WR or a reset; the counts only by a
DECODE that completed or a reset. -/
def Obligations.WritersOfEachBuffer : Prop :=
  ∀ (i : Instr) (s t : State), exec i s = .next t → ¬isReset i →
    (t.frameIn ≠ s.frameIn → ∃ off v, i = .bufWr .frameIn off v) ∧
    (t.cvtIn ≠ s.cvtIn → ∃ off v, i = .bufWr .cvtIn off v) ∧
    (t.dspOut ≠ s.dspOut → ∃ off v, i = .bufWr .dspOut off v) ∧
    (t.dspIn ≠ s.dspIn → (∃ off v, i = .bufWr .dspIn off v) ∨ i = .cvtIn ∨ i = .regWr 0x00#20 0x2#64) ∧
    (t.audioOut ≠ s.audioOut → (∃ off v, i = .bufWr .audioOut off v) ∨ i = .cvtOut ∨ i = .regWr 0x00#20 0x3#64) ∧
    (t.iqOut ≠ s.iqOut → (∃ off v, i = .bufWr .iqOut off v) ∨ i = .decode ∨ i = .regWr 0x00#20 0x1#64 ∨
      ∃ a b, i = .iqCopy a b) ∧
    (t.micOut ≠ s.micOut → (∃ off v, i = .bufWr .micOut off v) ∨ i = .decode ∨ i = .regWr 0x00#20 0x1#64 ∨
      ∃ m, i = .micCopy m) ∧
    (t.iqCount ≠ s.iqCount ∨ t.micCount ≠ s.micCount →
      (i = .decode ∨ i = .regWr 0x00#20 0x1#64) ∧ t.fault = 0#8)

/-- R2: the two units share no datapath. What CVT_IN and CVT_OUT leave in their buffers does not depend on the
decoder's registers and buffers, nor what DECODE leaves in its own on the converter's. -/
def Obligations.UnitsShareNoDatapath : Prop :=
  ∀ s s' : State, s.config = s'.config → s.fault = s'.fault →
    (s.blockLen = s'.blockLen → s.scaleIn = s'.scaleIn → s.sinValid = s'.sinValid → s.cvtIn = s'.cvtIn →
      s.dspIn = s'.dspIn → s.nanDraws = s'.nanDraws →
      ∃ t t', exec .cvtIn s = .next t ∧ exec .cvtIn s' = .next t' ∧ t.dspIn = t'.dspIn ∧ t.fault = t'.fault) ∧
    (s.blockLen = s'.blockLen → s.scaleOut = s'.scaleOut → s.soutValid = s'.soutValid → s.dspOut = s'.dspOut →
      s.audioOut = s'.audioOut →
      ∃ t t', exec .cvtOut s = .next t ∧ exec .cvtOut s' = .next t' ∧ t.audioOut = t'.audioOut ∧
        t.fault = t'.fault) ∧
    (s.decCfg = s'.decCfg → s.frameLen = s'.frameLen → s.frameIn = s'.frameIn → s.iqOut = s'.iqOut →
      s.micOut = s'.micOut → s.iqCount = s'.iqCount → s.micCount = s'.micCount →
      ∃ t t', exec .decode s = .next t ∧ exec .decode s' = .next t' ∧ t.iqOut = t'.iqOut ∧ t.micOut = t'.micOut ∧
        t.iqCount = t'.iqCount ∧ t.micCount = t'.micCount ∧ t.fault = t'.fault)

/-- R61 and R159: every well-formed transaction is taken: from any state between commands, with `rst_i` released, its
step answers a next state, and no DECODE is left half done. -/
def Obligations.WellFormedTransactionsAreTaken : Prop :=
  ∀ (s : State) (w : BitVec 96) (rest : List HostInput) (i : Instr),
    s.walk = none → s.rstI = false → s.inputs = .txn w :: rest → decodeTxn w = .ok i →
    i.wellFormed s.config.maxBlockLen = true → ∃ t, step s = .next t ∧ t.walk = none ∧ t.inputs = rest

/-- R194: issued unfaulted, a command raises no fault exactly where the host has set up what R194 asks (and, for
DECODE under STRICT_SYNC, a frame with its sync bytes, R196). -/
def Obligations.ReadyCommandsDoNotFault : Prop :=
  ∀ s : State, s.fault = 0#8 →
    (∃ t, exec .decode s = .next t ∧ (t.fault = 0#8 ↔ readyFrame s = true)) ∧
    (∃ t, exec .cvtIn s = .next t ∧ (t.fault = 0#8 ↔ readyToCvtIn s = true)) ∧
    (∃ t, exec .cvtOut s = .next t ∧ (t.fault = 0#8 ↔ readyToCvtOut s = true))

/-- R159 and R66: a finite sequence of well-formed transactions, in whatever order they arrive, is taken to its end,
the invariant holding there; and the run ends well exactly when FAULT = 0 at its end (the sequence stands in the
state's inputs: log 1). -/
def Obligations.WellFormedRunsReachTheirEnd : Prop :=
  ∀ s : State, inv s = true → s.rstI = false →
    (∀ x ∈ s.inputs, ∃ w i, x = .txn w ∧ decodeTxn w = .ok i ∧ i.wellFormed s.config.maxBlockLen = true) →
      ∃ t, runInputs s = .next t ∧ t.inputs = [] ∧ inv t = true ∧ (endsWell s = true ↔ t.fault = 0#8)
end

