-- ==== Sys2Proof/Laws/Binary64.lean ====
section
/-! SUPPORT. What a 64-bit pattern stands for: its sign, and the patterns of the infinities (00_scope.md R13). -/

namespace Sys2Proof.Machine

/-- The sign of an infinity is its pattern's top bit. -/
theorem f64_inf_msb {b : BitVec 64} {neg : Bool} (h : f64 b = .inf neg) : b.msb = neg := by
  unfold f64 at h
  dsimp only at h
  split at h
  · split at h
    · injection h
    · cases h
  · split at h <;> cases h

/-- The sign of a finite number is its pattern's top bit. -/
theorem f64_finite_msb {b : BitVec 64} {neg : Bool} {m : Nat} {e : Int} (h : f64 b = .finite neg m e) :
    b.msb = neg := by
  unfold f64 at h
  dsimp only at h
  split at h
  · split at h <;> cases h
  · split at h <;> injection h

/-- The pattern that an overflow and a product with an infinity give. -/
@[simp] theorem f64_signed64_infMag (neg : Bool) : f64 (signed64 neg infMag) = .inf neg := by
  cases neg <;> decide +kernel

end Sys2Proof.Machine
end

