-- ==== Sys2Proof/Laws/Memory.lean ====
section
/-! SUPPORT. The laws of buffer contents: read after write, writes elsewhere, the canonical form, and equality by
reading. -/

namespace Sys2Proof.Machine

variable {w : Nat}

@[simp] theorem Memory.read_nil (a : Nat) : Memory.read ([] : Memory w) a = 0#w := rfl

theorem Memory.read_cons (k : Nat) (x : BitVec w) (m : Memory w) (a : Nat) :
    Memory.read ((k, x) :: m) a = if k = a then x else m.read a := rfl

/-- Below the first listed offset everything reads as zero. -/
theorem Memory.read_of_wfFrom (m : Memory w) (lo a : Nat) (h : m.wfFrom lo = true) (ha : a < lo) :
    m.read a = 0#w := by
  induction m generalizing lo with
  | nil => rfl
  | cons e rest ih =>
    obtain ⟨k, x⟩ := e
    simp only [Memory.wfFrom, Bool.and_eq_true, decide_eq_true_eq] at h
    rw [Memory.read_cons, if_neg (by omega)]
    exact ih (k + 1) h.2 (by omega)

theorem Memory.wfFrom_mono (m : Memory w) {lo lo' : Nat} (hle : lo' ≤ lo) (h : m.wfFrom lo = true) :
    m.wfFrom lo' = true := by
  cases m with
  | nil => rfl
  | cons e rest =>
    obtain ⟨k, x⟩ := e
    simp only [Memory.wfFrom, Bool.and_eq_true, decide_eq_true_eq] at h ⊢
    exact ⟨⟨by omega, h.1.2⟩, h.2⟩

/-- A write leaves every other offset alone. -/
theorem Memory.read_write_other (m : Memory w) {a b : Nat} (v : BitVec w) (h : b ≠ a) :
    (m.write a v).read b = m.read b := by
  induction m with
  | nil =>
    simp only [Memory.write]
    split
    · rfl
    · rw [Memory.read_cons, if_neg (fun e => h e.symm)]
  | cons e rest ih =>
    obtain ⟨k, x⟩ := e
    simp only [Memory.write]
    split
    · split
      · rfl
      · rw [Memory.read_cons, if_neg (fun e => h e.symm)]
    · split
      · next _ hk =>
        subst hk
        have hab : ¬a = b := fun e => h e.symm
        split <;> simp [Memory.read_cons, hab]
      · simp [Memory.read_cons, ih]

/-- A write is read back, on contents in canonical form. -/
theorem Memory.read_write_same (m : Memory w) (a lo : Nat) (v : BitVec w) (h : m.wfFrom lo = true) :
    (m.write a v).read a = v := by
  induction m generalizing lo with
  | nil =>
    simp only [Memory.write]
    split
    · next hv => simp [hv, blankElem]
    · simp [Memory.read_cons]
  | cons e rest ih =>
    obtain ⟨k, x⟩ := e
    simp only [Memory.wfFrom, Bool.and_eq_true, decide_eq_true_eq] at h
    have hrest : ∀ b, b ≤ k → Memory.read rest b = 0#w := fun b hb =>
      Memory.read_of_wfFrom rest (k + 1) b h.2 (by omega)
    simp only [Memory.write]
    split
    · next hak =>
      split
      · next hv =>
        rw [Memory.read_cons, if_neg (by omega), hrest a (by omega), hv]; rfl
      · simp [Memory.read_cons]
    · split
      · next _ hk =>
        subst hk
        split
        · next hv => rw [hrest a (Nat.le_refl a), hv]; rfl
        · simp [Memory.read_cons]
      · next _ hk =>
        rw [Memory.read_cons, if_neg (fun e => hk e.symm)]
        exact ih (k + 1) h.2

theorem Memory.wfFrom_write (m : Memory w) (lo a : Nat) (v : BitVec w) (h : m.wfFrom lo = true) (ha : lo ≤ a) :
    (m.write a v).wfFrom lo = true := by
  induction m generalizing lo with
  | nil =>
    simp only [Memory.write]
    split
    · rfl
    · next hv => simpa [Memory.wfFrom, blankElem, ha] using hv
  | cons e rest ih =>
    obtain ⟨k, x⟩ := e
    have hk := h
    simp only [Memory.wfFrom, Bool.and_eq_true, decide_eq_true_eq] at hk
    simp only [Memory.write]
    split
    · next hak =>
      split
      · exact h
      · next hv =>
        simp only [Memory.wfFrom, Bool.and_eq_true, decide_eq_true_eq]
        exact ⟨⟨ha, by simpa using hv⟩, ⟨by omega, hk.1.2⟩, hk.2⟩
    · split
      · next _ hak =>
        subst hak
        split
        · exact Memory.wfFrom_mono rest (by omega) hk.2
        · next hv =>
          simp only [Memory.wfFrom, Bool.and_eq_true, decide_eq_true_eq]
          exact ⟨⟨ha, by simpa using hv⟩, hk.2⟩
      · next hlt hne =>
        simp only [Memory.wfFrom, Bool.and_eq_true, decide_eq_true_eq]
        exact ⟨hk.1, ih (k + 1) hk.2 (by omega)⟩

/-- Every write keeps the canonical form. -/
theorem Memory.wf_write (m : Memory w) (a : Nat) (v : BitVec w) (h : m.wf = true) : (m.write a v).wf = true :=
  Memory.wfFrom_write m 0 a v h (Nat.zero_le a)

theorem Memory.read_write (m : Memory w) (a b : Nat) (v : BitVec w) (h : m.wf = true) :
    (m.write a v).read b = if b = a then v else m.read b := by
  split
  · next e => subst e; exact Memory.read_write_same m b 0 v h
  · next e => exact Memory.read_write_other m v e

/-- Every write below `n` keeps the contents below `n`. -/
theorem Memory.below_write (m : Memory w) (n a : Nat) (v : BitVec w) (h : m.below n = true) (ha : a < n) :
    (m.write a v).below n = true := by
  induction m with
  | nil =>
    simp only [Memory.write]
    split <;> simp [Memory.below, ha]
  | cons e rest ih =>
    obtain ⟨k, x⟩ := e
    simp only [Memory.below, Bool.and_eq_true, decide_eq_true_eq] at h
    simp only [Memory.write]
    split
    · split <;> simp [Memory.below, h.1, h.2, ha]
    · split
      · split <;> simp [Memory.below, h.2, ha]
      · simp [Memory.below, h.1, ih h.2]

/-! ## Sequences -/

theorem Memory.wf_writeSeq (bs : List (BitVec w)) (m : Memory w) (a : Nat) (h : m.wf = true) :
    (m.writeSeq a bs).wf = true := by
  induction bs generalizing m a with
  | nil => exact h
  | cons b rest ih => exact ih _ _ (Memory.wf_write m a b h)

theorem Memory.below_writeSeq (bs : List (BitVec w)) (m : Memory w) (n a : Nat) (h : m.below n = true)
    (ha : a + bs.length ≤ n) : (m.writeSeq a bs).below n = true := by
  induction bs generalizing m a with
  | nil => exact h
  | cons b rest ih =>
    simp only [List.length_cons] at ha
    exact ih _ _ (Memory.below_write m n a b h (by omega)) (by omega)

/-- Outside the stored sequence everything reads as before. -/
theorem Memory.read_writeSeq_other (bs : List (BitVec w)) (m : Memory w) (a b : Nat)
    (h : b < a ∨ a + bs.length ≤ b) : (m.writeSeq a bs).read b = m.read b := by
  induction bs generalizing m a with
  | nil => rfl
  | cons x rest ih =>
    simp only [List.length_cons] at h
    rw [Memory.writeSeq, ih _ _ (by omega), Memory.read_write_other m x (by omega)]

/-- Within the stored sequence its elements are read back. -/
theorem Memory.read_writeSeq_same (bs : List (BitVec w)) (m : Memory w) (a i : Nat) (hm : m.wf = true)
    (h : i < bs.length) : (m.writeSeq a bs).read (a + i) = bs[i] := by
  induction bs generalizing m a i with
  | nil => simp at h
  | cons x rest ih =>
    have hw := Memory.wf_write m a x hm
    cases i with
    | zero =>
      rw [Memory.writeSeq, Memory.read_writeSeq_other rest _ (a + 1) (a + 0) (by omega)]
      exact Memory.read_write_same m a 0 x hm
    | succ j =>
      have hj : j < rest.length := by simpa using h
      have := ih (m.write a x) (a + 1) j hw hj
      rw [Memory.writeSeq, show a + (j + 1) = a + 1 + j by omega, this]
      rfl

@[simp] theorem Memory.readSeq_length (m : Memory w) (a n : Nat) : (m.readSeq a n).length = n := by
  induction n generalizing a with
  | zero => rfl
  | succ n ih => simp [Memory.readSeq, ih]

/-- A sequence is its elements read one by one. -/
theorem Memory.readSeq_eq (bs : List (BitVec w)) (m : Memory w) (a : Nat)
    (h : ∀ i, (hi : i < bs.length) → m.read (a + i) = bs[i]) : m.readSeq a bs.length = bs := by
  induction bs generalizing a with
  | nil => rfl
  | cons x rest ih =>
    have h0 := h 0 (by simp)
    have hr := ih (a + 1) (fun i hi => by
      have := h (i + 1) (by simpa using hi)
      simpa [Nat.add_assoc, Nat.add_comm 1] using this)
    simpa [Memory.readSeq, hr] using h0

/-- What was stored in sequence reads back in sequence. -/
theorem Memory.readSeq_writeSeq_same (bs : List (BitVec w)) (m : Memory w) (a : Nat) (h : m.wf = true) :
    (m.writeSeq a bs).readSeq a bs.length = bs :=
  Memory.readSeq_eq _ _ _ (fun i hi => Memory.read_writeSeq_same bs m a i h hi)

/-! ## Equality by reading -/

theorem Memory.ext_from (m m' : Memory w) (lo : Nat) (h : m.wfFrom lo = true) (h' : m'.wfFrom lo = true)
    (he : ∀ a, m.read a = m'.read a) : m = m' := by
  induction m generalizing lo m' with
  | nil =>
    cases m' with
    | nil => rfl
    | cons e' rest' =>
      obtain ⟨k', x'⟩ := e'
      simp only [Memory.wfFrom, Bool.and_eq_true, decide_eq_true_eq, bne_iff_ne] at h'
      exact absurd (by simpa [Memory.read_cons, blankElem] using (he k').symm) h'.1.2
  | cons e rest ih =>
    obtain ⟨k, x⟩ := e
    simp only [Memory.wfFrom, Bool.and_eq_true, decide_eq_true_eq, bne_iff_ne] at h
    cases m' with
    | nil => exact absurd (by simpa [Memory.read_cons, blankElem] using he k) h.1.2
    | cons e' rest' =>
      obtain ⟨k', x'⟩ := e'
      simp only [Memory.wfFrom, Bool.and_eq_true, decide_eq_true_eq, bne_iff_ne] at h'
      have hlow : ∀ (r : Memory w) (p b : Nat), r.wfFrom (p + 1) = true → b ≤ p → r.read b = 0#w :=
        fun r p b hr hb => Memory.read_of_wfFrom r (p + 1) b hr (by omega)
      have hk : k = k' := by
        rcases Nat.lt_trichotomy k k' with hlt | heq | hgt
        · have := he k
          rw [Memory.read_cons, if_pos rfl, Memory.read_cons, if_neg (by omega), hlow rest' k' k h'.2 (by omega)] at this
          exact absurd this h.1.2
        · exact heq
        · have := he k'
          rw [Memory.read_cons, if_neg (by omega), hlow rest k k' h.2 (by omega), Memory.read_cons, if_pos rfl] at this
          exact absurd this.symm h'.1.2
      subst hk
      have hx : x = x' := by simpa [Memory.read_cons] using he k
      subst hx
      have : rest = rest' := by
        refine ih rest' (k + 1) h.2 h'.2 (fun a => ?_)
        by_cases ha : k = a
        · subst ha
          rw [hlow rest k k h.2 (Nat.le_refl k), hlow rest' k k h'.2 (Nat.le_refl k)]
        · simpa [Memory.read_cons, ha] using he a
      rw [this]

/-- Contents in canonical form that read alike are equal. -/
theorem Memory.ext_read {m m' : Memory w} (h : m.wf = true) (h' : m'.wf = true) (he : ∀ a, m.read a = m'.read a) :
    m = m' :=
  Memory.ext_from m m' 0 h h' he

end Sys2Proof.Machine
end

