-- ==== Sys2Proof/Laws/State.lean ====
section
/-! SUPPORT. One lemma per field per named update of the state, so that no proof unfolds a record update. -/

namespace Sys2Proof.Machine

/-! ## `raiseFault` -/

@[simp] theorem raiseFault_config (c : FaultCode) (s : State) : (raiseFault c s).config = s.config := rfl
@[simp] theorem raiseFault_decCfg (c : FaultCode) (s : State) : (raiseFault c s).decCfg = s.decCfg := rfl
@[simp] theorem raiseFault_frameLen (c : FaultCode) (s : State) : (raiseFault c s).frameLen = s.frameLen := rfl
@[simp] theorem raiseFault_blockLen (c : FaultCode) (s : State) : (raiseFault c s).blockLen = s.blockLen := rfl
@[simp] theorem raiseFault_scaleIn (c : FaultCode) (s : State) : (raiseFault c s).scaleIn = s.scaleIn := rfl
@[simp] theorem raiseFault_scaleOut (c : FaultCode) (s : State) : (raiseFault c s).scaleOut = s.scaleOut := rfl
@[simp] theorem raiseFault_fault (c : FaultCode) (s : State) : (raiseFault c s).fault = c.code := rfl
@[simp] theorem raiseFault_sinValid (c : FaultCode) (s : State) : (raiseFault c s).sinValid = s.sinValid := rfl
@[simp] theorem raiseFault_soutValid (c : FaultCode) (s : State) : (raiseFault c s).soutValid = s.soutValid := rfl
@[simp] theorem raiseFault_iqCount (c : FaultCode) (s : State) : (raiseFault c s).iqCount = s.iqCount := rfl
@[simp] theorem raiseFault_micCount (c : FaultCode) (s : State) : (raiseFault c s).micCount = s.micCount := rfl
@[simp] theorem raiseFault_frameIn (c : FaultCode) (s : State) : (raiseFault c s).frameIn = s.frameIn := rfl
@[simp] theorem raiseFault_iqOut (c : FaultCode) (s : State) : (raiseFault c s).iqOut = s.iqOut := rfl
@[simp] theorem raiseFault_micOut (c : FaultCode) (s : State) : (raiseFault c s).micOut = s.micOut := rfl
@[simp] theorem raiseFault_cvtIn (c : FaultCode) (s : State) : (raiseFault c s).cvtIn = s.cvtIn := rfl
@[simp] theorem raiseFault_dspIn (c : FaultCode) (s : State) : (raiseFault c s).dspIn = s.dspIn := rfl
@[simp] theorem raiseFault_dspOut (c : FaultCode) (s : State) : (raiseFault c s).dspOut = s.dspOut := rfl
@[simp] theorem raiseFault_audioOut (c : FaultCode) (s : State) : (raiseFault c s).audioOut = s.audioOut := rfl
@[simp] theorem raiseFault_walk (c : FaultCode) (s : State) : (raiseFault c s).walk = s.walk := rfl
@[simp] theorem raiseFault_rstI (c : FaultCode) (s : State) : (raiseFault c s).rstI = s.rstI := rfl
@[simp] theorem raiseFault_inputs (c : FaultCode) (s : State) : (raiseFault c s).inputs = s.inputs := rfl
@[simp] theorem raiseFault_response (c : FaultCode) (s : State) : (raiseFault c s).response = s.response := rfl
@[simp] theorem raiseFault_nanDraws (c : FaultCode) (s : State) : (raiseFault c s).nanDraws = s.nanDraws := rfl

/-! ## `respond` -/

@[simp] theorem respond_config (v : Word) (s : State) : (s.respond v).config = s.config := rfl
@[simp] theorem respond_decCfg (v : Word) (s : State) : (s.respond v).decCfg = s.decCfg := rfl
@[simp] theorem respond_frameLen (v : Word) (s : State) : (s.respond v).frameLen = s.frameLen := rfl
@[simp] theorem respond_blockLen (v : Word) (s : State) : (s.respond v).blockLen = s.blockLen := rfl
@[simp] theorem respond_scaleIn (v : Word) (s : State) : (s.respond v).scaleIn = s.scaleIn := rfl
@[simp] theorem respond_scaleOut (v : Word) (s : State) : (s.respond v).scaleOut = s.scaleOut := rfl
@[simp] theorem respond_fault (v : Word) (s : State) : (s.respond v).fault = s.fault := rfl
@[simp] theorem respond_sinValid (v : Word) (s : State) : (s.respond v).sinValid = s.sinValid := rfl
@[simp] theorem respond_soutValid (v : Word) (s : State) : (s.respond v).soutValid = s.soutValid := rfl
@[simp] theorem respond_iqCount (v : Word) (s : State) : (s.respond v).iqCount = s.iqCount := rfl
@[simp] theorem respond_micCount (v : Word) (s : State) : (s.respond v).micCount = s.micCount := rfl
@[simp] theorem respond_frameIn (v : Word) (s : State) : (s.respond v).frameIn = s.frameIn := rfl
@[simp] theorem respond_iqOut (v : Word) (s : State) : (s.respond v).iqOut = s.iqOut := rfl
@[simp] theorem respond_micOut (v : Word) (s : State) : (s.respond v).micOut = s.micOut := rfl
@[simp] theorem respond_cvtIn (v : Word) (s : State) : (s.respond v).cvtIn = s.cvtIn := rfl
@[simp] theorem respond_dspIn (v : Word) (s : State) : (s.respond v).dspIn = s.dspIn := rfl
@[simp] theorem respond_dspOut (v : Word) (s : State) : (s.respond v).dspOut = s.dspOut := rfl
@[simp] theorem respond_audioOut (v : Word) (s : State) : (s.respond v).audioOut = s.audioOut := rfl
@[simp] theorem respond_walk (v : Word) (s : State) : (s.respond v).walk = s.walk := rfl
@[simp] theorem respond_rstI (v : Word) (s : State) : (s.respond v).rstI = s.rstI := rfl
@[simp] theorem respond_inputs (v : Word) (s : State) : (s.respond v).inputs = s.inputs := rfl
@[simp] theorem respond_response (v : Word) (s : State) : (s.respond v).response = some v := rfl
@[simp] theorem respond_nanDraws (v : Word) (s : State) : (s.respond v).nanDraws = s.nanDraws := rfl

/-! ## `consume` -/

@[simp] theorem consume_config (rest : List HostInput) (s : State) : (s.consume rest).config = s.config := rfl
@[simp] theorem consume_decCfg (rest : List HostInput) (s : State) : (s.consume rest).decCfg = s.decCfg := rfl
@[simp] theorem consume_frameLen (rest : List HostInput) (s : State) : (s.consume rest).frameLen = s.frameLen := rfl
@[simp] theorem consume_blockLen (rest : List HostInput) (s : State) : (s.consume rest).blockLen = s.blockLen := rfl
@[simp] theorem consume_scaleIn (rest : List HostInput) (s : State) : (s.consume rest).scaleIn = s.scaleIn := rfl
@[simp] theorem consume_scaleOut (rest : List HostInput) (s : State) : (s.consume rest).scaleOut = s.scaleOut := rfl
@[simp] theorem consume_fault (rest : List HostInput) (s : State) : (s.consume rest).fault = s.fault := rfl
@[simp] theorem consume_sinValid (rest : List HostInput) (s : State) : (s.consume rest).sinValid = s.sinValid := rfl
@[simp] theorem consume_soutValid (rest : List HostInput) (s : State) : (s.consume rest).soutValid = s.soutValid := rfl
@[simp] theorem consume_iqCount (rest : List HostInput) (s : State) : (s.consume rest).iqCount = s.iqCount := rfl
@[simp] theorem consume_micCount (rest : List HostInput) (s : State) : (s.consume rest).micCount = s.micCount := rfl
@[simp] theorem consume_frameIn (rest : List HostInput) (s : State) : (s.consume rest).frameIn = s.frameIn := rfl
@[simp] theorem consume_iqOut (rest : List HostInput) (s : State) : (s.consume rest).iqOut = s.iqOut := rfl
@[simp] theorem consume_micOut (rest : List HostInput) (s : State) : (s.consume rest).micOut = s.micOut := rfl
@[simp] theorem consume_cvtIn (rest : List HostInput) (s : State) : (s.consume rest).cvtIn = s.cvtIn := rfl
@[simp] theorem consume_dspIn (rest : List HostInput) (s : State) : (s.consume rest).dspIn = s.dspIn := rfl
@[simp] theorem consume_dspOut (rest : List HostInput) (s : State) : (s.consume rest).dspOut = s.dspOut := rfl
@[simp] theorem consume_audioOut (rest : List HostInput) (s : State) : (s.consume rest).audioOut = s.audioOut := rfl
@[simp] theorem consume_walk (rest : List HostInput) (s : State) : (s.consume rest).walk = s.walk := rfl
@[simp] theorem consume_rstI (rest : List HostInput) (s : State) : (s.consume rest).rstI = s.rstI := rfl
@[simp] theorem consume_inputs (rest : List HostInput) (s : State) : (s.consume rest).inputs = rest := rfl
@[simp] theorem consume_response (rest : List HostInput) (s : State) : (s.consume rest).response = none := rfl
@[simp] theorem consume_nanDraws (rest : List HostInput) (s : State) : (s.consume rest).nanDraws = s.nanDraws := rfl

/-! ## `geometryAbort` -/

@[simp] theorem geometryAbort_config (s : State) : (geometryAbort s).config = s.config := rfl
@[simp] theorem geometryAbort_decCfg (s : State) : (geometryAbort s).decCfg = s.decCfg := rfl
@[simp] theorem geometryAbort_frameLen (s : State) : (geometryAbort s).frameLen = s.frameLen := rfl
@[simp] theorem geometryAbort_blockLen (s : State) : (geometryAbort s).blockLen = s.blockLen := rfl
@[simp] theorem geometryAbort_scaleIn (s : State) : (geometryAbort s).scaleIn = s.scaleIn := rfl
@[simp] theorem geometryAbort_scaleOut (s : State) : (geometryAbort s).scaleOut = s.scaleOut := rfl
@[simp] theorem geometryAbort_fault (s : State) : (geometryAbort s).fault = FaultCode.geometry.code := rfl
@[simp] theorem geometryAbort_sinValid (s : State) : (geometryAbort s).sinValid = s.sinValid := rfl
@[simp] theorem geometryAbort_soutValid (s : State) : (geometryAbort s).soutValid = s.soutValid := rfl
@[simp] theorem geometryAbort_iqCount (s : State) : (geometryAbort s).iqCount = s.iqCount := rfl
@[simp] theorem geometryAbort_micCount (s : State) : (geometryAbort s).micCount = s.micCount := rfl
@[simp] theorem geometryAbort_frameIn (s : State) : (geometryAbort s).frameIn = s.frameIn := rfl
@[simp] theorem geometryAbort_iqOut (s : State) : (geometryAbort s).iqOut = s.iqOut := rfl
@[simp] theorem geometryAbort_micOut (s : State) : (geometryAbort s).micOut = s.micOut := rfl
@[simp] theorem geometryAbort_cvtIn (s : State) : (geometryAbort s).cvtIn = s.cvtIn := rfl
@[simp] theorem geometryAbort_dspIn (s : State) : (geometryAbort s).dspIn = s.dspIn := rfl
@[simp] theorem geometryAbort_dspOut (s : State) : (geometryAbort s).dspOut = s.dspOut := rfl
@[simp] theorem geometryAbort_audioOut (s : State) : (geometryAbort s).audioOut = s.audioOut := rfl
@[simp] theorem geometryAbort_walk (s : State) : (geometryAbort s).walk = none := rfl
@[simp] theorem geometryAbort_rstI (s : State) : (geometryAbort s).rstI = s.rstI := rfl
@[simp] theorem geometryAbort_inputs (s : State) : (geometryAbort s).inputs = s.inputs := rfl
@[simp] theorem geometryAbort_response (s : State) : (geometryAbort s).response = s.response := rfl
@[simp] theorem geometryAbort_nanDraws (s : State) : (geometryAbort s).nanDraws = s.nanDraws := rfl

/-! ## `iqSkipGroup` -/

@[simp] theorem iqSkipGroup_config (w : Walk) (s : State) : (iqSkipGroup w s).config = s.config := rfl
@[simp] theorem iqSkipGroup_decCfg (w : Walk) (s : State) : (iqSkipGroup w s).decCfg = s.decCfg := rfl
@[simp] theorem iqSkipGroup_frameLen (w : Walk) (s : State) : (iqSkipGroup w s).frameLen = s.frameLen := rfl
@[simp] theorem iqSkipGroup_blockLen (w : Walk) (s : State) : (iqSkipGroup w s).blockLen = s.blockLen := rfl
@[simp] theorem iqSkipGroup_scaleIn (w : Walk) (s : State) : (iqSkipGroup w s).scaleIn = s.scaleIn := rfl
@[simp] theorem iqSkipGroup_scaleOut (w : Walk) (s : State) : (iqSkipGroup w s).scaleOut = s.scaleOut := rfl
@[simp] theorem iqSkipGroup_fault (w : Walk) (s : State) : (iqSkipGroup w s).fault = s.fault := rfl
@[simp] theorem iqSkipGroup_sinValid (w : Walk) (s : State) : (iqSkipGroup w s).sinValid = s.sinValid := rfl
@[simp] theorem iqSkipGroup_soutValid (w : Walk) (s : State) : (iqSkipGroup w s).soutValid = s.soutValid := rfl
@[simp] theorem iqSkipGroup_iqCount (w : Walk) (s : State) : (iqSkipGroup w s).iqCount = s.iqCount := rfl
@[simp] theorem iqSkipGroup_micCount (w : Walk) (s : State) : (iqSkipGroup w s).micCount = s.micCount := rfl
@[simp] theorem iqSkipGroup_frameIn (w : Walk) (s : State) : (iqSkipGroup w s).frameIn = s.frameIn := rfl
@[simp] theorem iqSkipGroup_iqOut (w : Walk) (s : State) : (iqSkipGroup w s).iqOut = s.iqOut := rfl
@[simp] theorem iqSkipGroup_micOut (w : Walk) (s : State) : (iqSkipGroup w s).micOut = s.micOut := rfl
@[simp] theorem iqSkipGroup_cvtIn (w : Walk) (s : State) : (iqSkipGroup w s).cvtIn = s.cvtIn := rfl
@[simp] theorem iqSkipGroup_dspIn (w : Walk) (s : State) : (iqSkipGroup w s).dspIn = s.dspIn := rfl
@[simp] theorem iqSkipGroup_dspOut (w : Walk) (s : State) : (iqSkipGroup w s).dspOut = s.dspOut := rfl
@[simp] theorem iqSkipGroup_audioOut (w : Walk) (s : State) : (iqSkipGroup w s).audioOut = s.audioOut := rfl
@[simp] theorem iqSkipGroup_walk (w : Walk) (s : State) : (iqSkipGroup w s).walk = some w.afterIqSkip := rfl
@[simp] theorem iqSkipGroup_rstI (w : Walk) (s : State) : (iqSkipGroup w s).rstI = s.rstI := rfl
@[simp] theorem iqSkipGroup_inputs (w : Walk) (s : State) : (iqSkipGroup w s).inputs = s.inputs := rfl
@[simp] theorem iqSkipGroup_response (w : Walk) (s : State) : (iqSkipGroup w s).response = s.response := rfl
@[simp] theorem iqSkipGroup_nanDraws (w : Walk) (s : State) : (iqSkipGroup w s).nanDraws = s.nanDraws := rfl

/-! ## `micSkipGroup` -/

@[simp] theorem micSkipGroup_config (w : Walk) (s : State) : (micSkipGroup w s).config = s.config := rfl
@[simp] theorem micSkipGroup_decCfg (w : Walk) (s : State) : (micSkipGroup w s).decCfg = s.decCfg := rfl
@[simp] theorem micSkipGroup_frameLen (w : Walk) (s : State) : (micSkipGroup w s).frameLen = s.frameLen := rfl
@[simp] theorem micSkipGroup_blockLen (w : Walk) (s : State) : (micSkipGroup w s).blockLen = s.blockLen := rfl
@[simp] theorem micSkipGroup_scaleIn (w : Walk) (s : State) : (micSkipGroup w s).scaleIn = s.scaleIn := rfl
@[simp] theorem micSkipGroup_scaleOut (w : Walk) (s : State) : (micSkipGroup w s).scaleOut = s.scaleOut := rfl
@[simp] theorem micSkipGroup_fault (w : Walk) (s : State) : (micSkipGroup w s).fault = s.fault := rfl
@[simp] theorem micSkipGroup_sinValid (w : Walk) (s : State) : (micSkipGroup w s).sinValid = s.sinValid := rfl
@[simp] theorem micSkipGroup_soutValid (w : Walk) (s : State) : (micSkipGroup w s).soutValid = s.soutValid := rfl
@[simp] theorem micSkipGroup_iqCount (w : Walk) (s : State) : (micSkipGroup w s).iqCount = s.iqCount := rfl
@[simp] theorem micSkipGroup_micCount (w : Walk) (s : State) : (micSkipGroup w s).micCount = s.micCount := rfl
@[simp] theorem micSkipGroup_frameIn (w : Walk) (s : State) : (micSkipGroup w s).frameIn = s.frameIn := rfl
@[simp] theorem micSkipGroup_iqOut (w : Walk) (s : State) : (micSkipGroup w s).iqOut = s.iqOut := rfl
@[simp] theorem micSkipGroup_micOut (w : Walk) (s : State) : (micSkipGroup w s).micOut = s.micOut := rfl
@[simp] theorem micSkipGroup_cvtIn (w : Walk) (s : State) : (micSkipGroup w s).cvtIn = s.cvtIn := rfl
@[simp] theorem micSkipGroup_dspIn (w : Walk) (s : State) : (micSkipGroup w s).dspIn = s.dspIn := rfl
@[simp] theorem micSkipGroup_dspOut (w : Walk) (s : State) : (micSkipGroup w s).dspOut = s.dspOut := rfl
@[simp] theorem micSkipGroup_audioOut (w : Walk) (s : State) : (micSkipGroup w s).audioOut = s.audioOut := rfl
@[simp] theorem micSkipGroup_walk (w : Walk) (s : State) : (micSkipGroup w s).walk = some (w.afterMicSkip s.decim) := rfl
@[simp] theorem micSkipGroup_rstI (w : Walk) (s : State) : (micSkipGroup w s).rstI = s.rstI := rfl
@[simp] theorem micSkipGroup_inputs (w : Walk) (s : State) : (micSkipGroup w s).inputs = s.inputs := rfl
@[simp] theorem micSkipGroup_response (w : Walk) (s : State) : (micSkipGroup w s).response = s.response := rfl
@[simp] theorem micSkipGroup_nanDraws (w : Walk) (s : State) : (micSkipGroup w s).nanDraws = s.nanDraws := rfl

/-! ## `padGroup` -/

@[simp] theorem padGroup_config (w : Walk) (s : State) : (padGroup w s).config = s.config := rfl
@[simp] theorem padGroup_decCfg (w : Walk) (s : State) : (padGroup w s).decCfg = s.decCfg := rfl
@[simp] theorem padGroup_frameLen (w : Walk) (s : State) : (padGroup w s).frameLen = s.frameLen := rfl
@[simp] theorem padGroup_blockLen (w : Walk) (s : State) : (padGroup w s).blockLen = s.blockLen := rfl
@[simp] theorem padGroup_scaleIn (w : Walk) (s : State) : (padGroup w s).scaleIn = s.scaleIn := rfl
@[simp] theorem padGroup_scaleOut (w : Walk) (s : State) : (padGroup w s).scaleOut = s.scaleOut := rfl
@[simp] theorem padGroup_fault (w : Walk) (s : State) : (padGroup w s).fault = s.fault := rfl
@[simp] theorem padGroup_sinValid (w : Walk) (s : State) : (padGroup w s).sinValid = s.sinValid := rfl
@[simp] theorem padGroup_soutValid (w : Walk) (s : State) : (padGroup w s).soutValid = s.soutValid := rfl
@[simp] theorem padGroup_iqCount (w : Walk) (s : State) : (padGroup w s).iqCount = s.iqCount := rfl
@[simp] theorem padGroup_micCount (w : Walk) (s : State) : (padGroup w s).micCount = s.micCount := rfl
@[simp] theorem padGroup_frameIn (w : Walk) (s : State) : (padGroup w s).frameIn = s.frameIn := rfl
@[simp] theorem padGroup_iqOut (w : Walk) (s : State) : (padGroup w s).iqOut = s.iqOut := rfl
@[simp] theorem padGroup_micOut (w : Walk) (s : State) : (padGroup w s).micOut = s.micOut := rfl
@[simp] theorem padGroup_cvtIn (w : Walk) (s : State) : (padGroup w s).cvtIn = s.cvtIn := rfl
@[simp] theorem padGroup_dspIn (w : Walk) (s : State) : (padGroup w s).dspIn = s.dspIn := rfl
@[simp] theorem padGroup_dspOut (w : Walk) (s : State) : (padGroup w s).dspOut = s.dspOut := rfl
@[simp] theorem padGroup_audioOut (w : Walk) (s : State) : (padGroup w s).audioOut = s.audioOut := rfl
@[simp] theorem padGroup_walk (w : Walk) (s : State) : (padGroup w s).walk = some w.afterPad := rfl
@[simp] theorem padGroup_rstI (w : Walk) (s : State) : (padGroup w s).rstI = s.rstI := rfl
@[simp] theorem padGroup_inputs (w : Walk) (s : State) : (padGroup w s).inputs = s.inputs := rfl
@[simp] theorem padGroup_response (w : Walk) (s : State) : (padGroup w s).response = s.response := rfl
@[simp] theorem padGroup_nanDraws (w : Walk) (s : State) : (padGroup w s).nanDraws = s.nanDraws := rfl

/-! ## `convertOutPair` -/

@[simp] theorem convertOutPair_config (k : Nat) (s : State) : (convertOutPair k s).config = s.config := rfl
@[simp] theorem convertOutPair_decCfg (k : Nat) (s : State) : (convertOutPair k s).decCfg = s.decCfg := rfl
@[simp] theorem convertOutPair_frameLen (k : Nat) (s : State) : (convertOutPair k s).frameLen = s.frameLen := rfl
@[simp] theorem convertOutPair_blockLen (k : Nat) (s : State) : (convertOutPair k s).blockLen = s.blockLen := rfl
@[simp] theorem convertOutPair_scaleIn (k : Nat) (s : State) : (convertOutPair k s).scaleIn = s.scaleIn := rfl
@[simp] theorem convertOutPair_scaleOut (k : Nat) (s : State) : (convertOutPair k s).scaleOut = s.scaleOut := rfl
@[simp] theorem convertOutPair_fault (k : Nat) (s : State) : (convertOutPair k s).fault = s.fault := rfl
@[simp] theorem convertOutPair_sinValid (k : Nat) (s : State) : (convertOutPair k s).sinValid = s.sinValid := rfl
@[simp] theorem convertOutPair_soutValid (k : Nat) (s : State) : (convertOutPair k s).soutValid = s.soutValid := rfl
@[simp] theorem convertOutPair_iqCount (k : Nat) (s : State) : (convertOutPair k s).iqCount = s.iqCount := rfl
@[simp] theorem convertOutPair_micCount (k : Nat) (s : State) : (convertOutPair k s).micCount = s.micCount := rfl
@[simp] theorem convertOutPair_frameIn (k : Nat) (s : State) : (convertOutPair k s).frameIn = s.frameIn := rfl
@[simp] theorem convertOutPair_iqOut (k : Nat) (s : State) : (convertOutPair k s).iqOut = s.iqOut := rfl
@[simp] theorem convertOutPair_micOut (k : Nat) (s : State) : (convertOutPair k s).micOut = s.micOut := rfl
@[simp] theorem convertOutPair_cvtIn (k : Nat) (s : State) : (convertOutPair k s).cvtIn = s.cvtIn := rfl
@[simp] theorem convertOutPair_dspIn (k : Nat) (s : State) : (convertOutPair k s).dspIn = s.dspIn := rfl
@[simp] theorem convertOutPair_dspOut (k : Nat) (s : State) : (convertOutPair k s).dspOut = s.dspOut := rfl
@[simp] theorem convertOutPair_audioOut (k : Nat) (s : State) : (convertOutPair k s).audioOut = s.audioOut.writeSeq (4 * k)
      (bytes16 (cvtOutValue s.config s.scaleOut (s.dspOut.read (2 * k))) ++
        bytes16 (cvtOutValue s.config s.scaleOut (s.dspOut.read (2 * k + 1)))) := rfl
@[simp] theorem convertOutPair_walk (k : Nat) (s : State) : (convertOutPair k s).walk = s.walk := rfl
@[simp] theorem convertOutPair_rstI (k : Nat) (s : State) : (convertOutPair k s).rstI = s.rstI := rfl
@[simp] theorem convertOutPair_inputs (k : Nat) (s : State) : (convertOutPair k s).inputs = s.inputs := rfl
@[simp] theorem convertOutPair_response (k : Nat) (s : State) : (convertOutPair k s).response = s.response := rfl
@[simp] theorem convertOutPair_nanDraws (k : Nat) (s : State) : (convertOutPair k s).nanDraws = s.nanDraws := rfl

/-! ## `applyReset` -/

@[simp] theorem applyReset_config (s : State) : (applyReset s).config = s.config := rfl
@[simp] theorem applyReset_decCfg (s : State) : (applyReset s).decCfg = 0 := rfl
@[simp] theorem applyReset_frameLen (s : State) : (applyReset s).frameLen = 0 := rfl
@[simp] theorem applyReset_blockLen (s : State) : (applyReset s).blockLen = 0 := rfl
@[simp] theorem applyReset_scaleIn (s : State) : (applyReset s).scaleIn = 0 := rfl
@[simp] theorem applyReset_scaleOut (s : State) : (applyReset s).scaleOut = 0 := rfl
@[simp] theorem applyReset_fault (s : State) : (applyReset s).fault = 0 := rfl
@[simp] theorem applyReset_sinValid (s : State) : (applyReset s).sinValid = false := rfl
@[simp] theorem applyReset_soutValid (s : State) : (applyReset s).soutValid = false := rfl
@[simp] theorem applyReset_iqCount (s : State) : (applyReset s).iqCount = 0 := rfl
@[simp] theorem applyReset_micCount (s : State) : (applyReset s).micCount = 0 := rfl
@[simp] theorem applyReset_frameIn (s : State) : (applyReset s).frameIn = [] := rfl
@[simp] theorem applyReset_iqOut (s : State) : (applyReset s).iqOut = [] := rfl
@[simp] theorem applyReset_micOut (s : State) : (applyReset s).micOut = [] := rfl
@[simp] theorem applyReset_cvtIn (s : State) : (applyReset s).cvtIn = [] := rfl
@[simp] theorem applyReset_dspIn (s : State) : (applyReset s).dspIn = [] := rfl
@[simp] theorem applyReset_dspOut (s : State) : (applyReset s).dspOut = [] := rfl
@[simp] theorem applyReset_audioOut (s : State) : (applyReset s).audioOut = [] := rfl
@[simp] theorem applyReset_walk (s : State) : (applyReset s).walk = none := rfl
@[simp] theorem applyReset_rstI (s : State) : (applyReset s).rstI = s.rstI := rfl
@[simp] theorem applyReset_inputs (s : State) : (applyReset s).inputs = s.inputs := rfl
@[simp] theorem applyReset_response (s : State) : (applyReset s).response = s.response := rfl
@[simp] theorem applyReset_nanDraws (s : State) : (applyReset s).nanDraws = s.nanDraws := rfl

/-! ## `writeSpace`: what it leaves alone in every case -/

@[simp] theorem writeSpace_config (sp : Space) (off : Nat) (v : Word) (s : State) : (s.writeSpace sp off v).config = s.config := by cases sp <;> rfl
@[simp] theorem writeSpace_decCfg (sp : Space) (off : Nat) (v : Word) (s : State) : (s.writeSpace sp off v).decCfg = s.decCfg := by cases sp <;> rfl
@[simp] theorem writeSpace_frameLen (sp : Space) (off : Nat) (v : Word) (s : State) : (s.writeSpace sp off v).frameLen = s.frameLen := by cases sp <;> rfl
@[simp] theorem writeSpace_blockLen (sp : Space) (off : Nat) (v : Word) (s : State) : (s.writeSpace sp off v).blockLen = s.blockLen := by cases sp <;> rfl
@[simp] theorem writeSpace_scaleIn (sp : Space) (off : Nat) (v : Word) (s : State) : (s.writeSpace sp off v).scaleIn = s.scaleIn := by cases sp <;> rfl
@[simp] theorem writeSpace_scaleOut (sp : Space) (off : Nat) (v : Word) (s : State) : (s.writeSpace sp off v).scaleOut = s.scaleOut := by cases sp <;> rfl
@[simp] theorem writeSpace_fault (sp : Space) (off : Nat) (v : Word) (s : State) : (s.writeSpace sp off v).fault = s.fault := by cases sp <;> rfl
@[simp] theorem writeSpace_sinValid (sp : Space) (off : Nat) (v : Word) (s : State) : (s.writeSpace sp off v).sinValid = s.sinValid := by cases sp <;> rfl
@[simp] theorem writeSpace_soutValid (sp : Space) (off : Nat) (v : Word) (s : State) : (s.writeSpace sp off v).soutValid = s.soutValid := by cases sp <;> rfl
@[simp] theorem writeSpace_iqCount (sp : Space) (off : Nat) (v : Word) (s : State) : (s.writeSpace sp off v).iqCount = s.iqCount := by cases sp <;> rfl
@[simp] theorem writeSpace_micCount (sp : Space) (off : Nat) (v : Word) (s : State) : (s.writeSpace sp off v).micCount = s.micCount := by cases sp <;> rfl
@[simp] theorem writeSpace_walk (sp : Space) (off : Nat) (v : Word) (s : State) : (s.writeSpace sp off v).walk = s.walk := by cases sp <;> rfl
@[simp] theorem writeSpace_rstI (sp : Space) (off : Nat) (v : Word) (s : State) : (s.writeSpace sp off v).rstI = s.rstI := by cases sp <;> rfl
@[simp] theorem writeSpace_inputs (sp : Space) (off : Nat) (v : Word) (s : State) : (s.writeSpace sp off v).inputs = s.inputs := by cases sp <;> rfl
@[simp] theorem writeSpace_response (sp : Space) (off : Nat) (v : Word) (s : State) : (s.writeSpace sp off v).response = s.response := by cases sp <;> rfl
@[simp] theorem writeSpace_nanDraws (sp : Space) (off : Nat) (v : Word) (s : State) : (s.writeSpace sp off v).nanDraws = s.nanDraws := by cases sp <;> rfl

/-! ## `writeReg`: what it leaves alone in every case -/

@[simp] theorem writeReg_config (r : Reg) (v : Word) (s : State) : (s.writeReg r v).config = s.config := by cases r <;> rfl
@[simp] theorem writeReg_fault (r : Reg) (v : Word) (s : State) : (s.writeReg r v).fault = s.fault := by cases r <;> rfl
@[simp] theorem writeReg_iqCount (r : Reg) (v : Word) (s : State) : (s.writeReg r v).iqCount = s.iqCount := by cases r <;> rfl
@[simp] theorem writeReg_micCount (r : Reg) (v : Word) (s : State) : (s.writeReg r v).micCount = s.micCount := by cases r <;> rfl
@[simp] theorem writeReg_frameIn (r : Reg) (v : Word) (s : State) : (s.writeReg r v).frameIn = s.frameIn := by cases r <;> rfl
@[simp] theorem writeReg_iqOut (r : Reg) (v : Word) (s : State) : (s.writeReg r v).iqOut = s.iqOut := by cases r <;> rfl
@[simp] theorem writeReg_micOut (r : Reg) (v : Word) (s : State) : (s.writeReg r v).micOut = s.micOut := by cases r <;> rfl
@[simp] theorem writeReg_cvtIn (r : Reg) (v : Word) (s : State) : (s.writeReg r v).cvtIn = s.cvtIn := by cases r <;> rfl
@[simp] theorem writeReg_dspIn (r : Reg) (v : Word) (s : State) : (s.writeReg r v).dspIn = s.dspIn := by cases r <;> rfl
@[simp] theorem writeReg_dspOut (r : Reg) (v : Word) (s : State) : (s.writeReg r v).dspOut = s.dspOut := by cases r <;> rfl
@[simp] theorem writeReg_audioOut (r : Reg) (v : Word) (s : State) : (s.writeReg r v).audioOut = s.audioOut := by cases r <;> rfl
@[simp] theorem writeReg_walk (r : Reg) (v : Word) (s : State) : (s.writeReg r v).walk = s.walk := by cases r <;> rfl
@[simp] theorem writeReg_rstI (r : Reg) (v : Word) (s : State) : (s.writeReg r v).rstI = s.rstI := by cases r <;> rfl
@[simp] theorem writeReg_inputs (r : Reg) (v : Word) (s : State) : (s.writeReg r v).inputs = s.inputs := by cases r <;> rfl
@[simp] theorem writeReg_response (r : Reg) (v : Word) (s : State) : (s.writeReg r v).response = s.response := by cases r <;> rfl
@[simp] theorem writeReg_nanDraws (r : Reg) (v : Word) (s : State) : (s.writeReg r v).nanDraws = s.nanDraws := by cases r <;> rfl

/-! ## `iqCopyGroup`: what it leaves alone in every case -/

@[simp] theorem iqCopyGroup_config (i q : BitVec 24) (w : Walk) (s : State) : (iqCopyGroup i q w s).config = s.config := by unfold iqCopyGroup; split <;> rfl
@[simp] theorem iqCopyGroup_decCfg (i q : BitVec 24) (w : Walk) (s : State) : (iqCopyGroup i q w s).decCfg = s.decCfg := by unfold iqCopyGroup; split <;> rfl
@[simp] theorem iqCopyGroup_frameLen (i q : BitVec 24) (w : Walk) (s : State) : (iqCopyGroup i q w s).frameLen = s.frameLen := by unfold iqCopyGroup; split <;> rfl
@[simp] theorem iqCopyGroup_blockLen (i q : BitVec 24) (w : Walk) (s : State) : (iqCopyGroup i q w s).blockLen = s.blockLen := by unfold iqCopyGroup; split <;> rfl
@[simp] theorem iqCopyGroup_scaleIn (i q : BitVec 24) (w : Walk) (s : State) : (iqCopyGroup i q w s).scaleIn = s.scaleIn := by unfold iqCopyGroup; split <;> rfl
@[simp] theorem iqCopyGroup_scaleOut (i q : BitVec 24) (w : Walk) (s : State) : (iqCopyGroup i q w s).scaleOut = s.scaleOut := by unfold iqCopyGroup; split <;> rfl
@[simp] theorem iqCopyGroup_sinValid (i q : BitVec 24) (w : Walk) (s : State) : (iqCopyGroup i q w s).sinValid = s.sinValid := by unfold iqCopyGroup; split <;> rfl
@[simp] theorem iqCopyGroup_soutValid (i q : BitVec 24) (w : Walk) (s : State) : (iqCopyGroup i q w s).soutValid = s.soutValid := by unfold iqCopyGroup; split <;> rfl
@[simp] theorem iqCopyGroup_iqCount (i q : BitVec 24) (w : Walk) (s : State) : (iqCopyGroup i q w s).iqCount = s.iqCount := by unfold iqCopyGroup; split <;> rfl
@[simp] theorem iqCopyGroup_micCount (i q : BitVec 24) (w : Walk) (s : State) : (iqCopyGroup i q w s).micCount = s.micCount := by unfold iqCopyGroup; split <;> rfl
@[simp] theorem iqCopyGroup_frameIn (i q : BitVec 24) (w : Walk) (s : State) : (iqCopyGroup i q w s).frameIn = s.frameIn := by unfold iqCopyGroup; split <;> rfl
@[simp] theorem iqCopyGroup_micOut (i q : BitVec 24) (w : Walk) (s : State) : (iqCopyGroup i q w s).micOut = s.micOut := by unfold iqCopyGroup; split <;> rfl
@[simp] theorem iqCopyGroup_cvtIn (i q : BitVec 24) (w : Walk) (s : State) : (iqCopyGroup i q w s).cvtIn = s.cvtIn := by unfold iqCopyGroup; split <;> rfl
@[simp] theorem iqCopyGroup_dspIn (i q : BitVec 24) (w : Walk) (s : State) : (iqCopyGroup i q w s).dspIn = s.dspIn := by unfold iqCopyGroup; split <;> rfl
@[simp] theorem iqCopyGroup_dspOut (i q : BitVec 24) (w : Walk) (s : State) : (iqCopyGroup i q w s).dspOut = s.dspOut := by unfold iqCopyGroup; split <;> rfl
@[simp] theorem iqCopyGroup_audioOut (i q : BitVec 24) (w : Walk) (s : State) : (iqCopyGroup i q w s).audioOut = s.audioOut := by unfold iqCopyGroup; split <;> rfl
@[simp] theorem iqCopyGroup_rstI (i q : BitVec 24) (w : Walk) (s : State) : (iqCopyGroup i q w s).rstI = s.rstI := by unfold iqCopyGroup; split <;> rfl
@[simp] theorem iqCopyGroup_inputs (i q : BitVec 24) (w : Walk) (s : State) : (iqCopyGroup i q w s).inputs = s.inputs := by unfold iqCopyGroup; split <;> rfl
@[simp] theorem iqCopyGroup_response (i q : BitVec 24) (w : Walk) (s : State) : (iqCopyGroup i q w s).response = s.response := by unfold iqCopyGroup; split <;> rfl
@[simp] theorem iqCopyGroup_nanDraws (i q : BitVec 24) (w : Walk) (s : State) : (iqCopyGroup i q w s).nanDraws = s.nanDraws := by unfold iqCopyGroup; split <;> rfl

/-! ## `micCopyGroup`: what it leaves alone in every case -/

@[simp] theorem micCopyGroup_config (m : BitVec 16) (w : Walk) (s : State) : (micCopyGroup m w s).config = s.config := by unfold micCopyGroup; split <;> rfl
@[simp] theorem micCopyGroup_decCfg (m : BitVec 16) (w : Walk) (s : State) : (micCopyGroup m w s).decCfg = s.decCfg := by unfold micCopyGroup; split <;> rfl
@[simp] theorem micCopyGroup_frameLen (m : BitVec 16) (w : Walk) (s : State) : (micCopyGroup m w s).frameLen = s.frameLen := by unfold micCopyGroup; split <;> rfl
@[simp] theorem micCopyGroup_blockLen (m : BitVec 16) (w : Walk) (s : State) : (micCopyGroup m w s).blockLen = s.blockLen := by unfold micCopyGroup; split <;> rfl
@[simp] theorem micCopyGroup_scaleIn (m : BitVec 16) (w : Walk) (s : State) : (micCopyGroup m w s).scaleIn = s.scaleIn := by unfold micCopyGroup; split <;> rfl
@[simp] theorem micCopyGroup_scaleOut (m : BitVec 16) (w : Walk) (s : State) : (micCopyGroup m w s).scaleOut = s.scaleOut := by unfold micCopyGroup; split <;> rfl
@[simp] theorem micCopyGroup_sinValid (m : BitVec 16) (w : Walk) (s : State) : (micCopyGroup m w s).sinValid = s.sinValid := by unfold micCopyGroup; split <;> rfl
@[simp] theorem micCopyGroup_soutValid (m : BitVec 16) (w : Walk) (s : State) : (micCopyGroup m w s).soutValid = s.soutValid := by unfold micCopyGroup; split <;> rfl
@[simp] theorem micCopyGroup_iqCount (m : BitVec 16) (w : Walk) (s : State) : (micCopyGroup m w s).iqCount = s.iqCount := by unfold micCopyGroup; split <;> rfl
@[simp] theorem micCopyGroup_micCount (m : BitVec 16) (w : Walk) (s : State) : (micCopyGroup m w s).micCount = s.micCount := by unfold micCopyGroup; split <;> rfl
@[simp] theorem micCopyGroup_frameIn (m : BitVec 16) (w : Walk) (s : State) : (micCopyGroup m w s).frameIn = s.frameIn := by unfold micCopyGroup; split <;> rfl
@[simp] theorem micCopyGroup_iqOut (m : BitVec 16) (w : Walk) (s : State) : (micCopyGroup m w s).iqOut = s.iqOut := by unfold micCopyGroup; split <;> rfl
@[simp] theorem micCopyGroup_cvtIn (m : BitVec 16) (w : Walk) (s : State) : (micCopyGroup m w s).cvtIn = s.cvtIn := by unfold micCopyGroup; split <;> rfl
@[simp] theorem micCopyGroup_dspIn (m : BitVec 16) (w : Walk) (s : State) : (micCopyGroup m w s).dspIn = s.dspIn := by unfold micCopyGroup; split <;> rfl
@[simp] theorem micCopyGroup_dspOut (m : BitVec 16) (w : Walk) (s : State) : (micCopyGroup m w s).dspOut = s.dspOut := by unfold micCopyGroup; split <;> rfl
@[simp] theorem micCopyGroup_audioOut (m : BitVec 16) (w : Walk) (s : State) : (micCopyGroup m w s).audioOut = s.audioOut := by unfold micCopyGroup; split <;> rfl
@[simp] theorem micCopyGroup_rstI (m : BitVec 16) (w : Walk) (s : State) : (micCopyGroup m w s).rstI = s.rstI := by unfold micCopyGroup; split <;> rfl
@[simp] theorem micCopyGroup_inputs (m : BitVec 16) (w : Walk) (s : State) : (micCopyGroup m w s).inputs = s.inputs := by unfold micCopyGroup; split <;> rfl
@[simp] theorem micCopyGroup_response (m : BitVec 16) (w : Walk) (s : State) : (micCopyGroup m w s).response = s.response := by unfold micCopyGroup; split <;> rfl
@[simp] theorem micCopyGroup_nanDraws (m : BitVec 16) (w : Walk) (s : State) : (micCopyGroup m w s).nanDraws = s.nanDraws := by unfold micCopyGroup; split <;> rfl

/-! ## `endSubframe`: what it leaves alone in every case -/

@[simp] theorem endSubframe_config (w : Walk) (s : State) : (endSubframe w s).config = s.config := by unfold endSubframe; split <;> rfl
@[simp] theorem endSubframe_decCfg (w : Walk) (s : State) : (endSubframe w s).decCfg = s.decCfg := by unfold endSubframe; split <;> rfl
@[simp] theorem endSubframe_frameLen (w : Walk) (s : State) : (endSubframe w s).frameLen = s.frameLen := by unfold endSubframe; split <;> rfl
@[simp] theorem endSubframe_blockLen (w : Walk) (s : State) : (endSubframe w s).blockLen = s.blockLen := by unfold endSubframe; split <;> rfl
@[simp] theorem endSubframe_scaleIn (w : Walk) (s : State) : (endSubframe w s).scaleIn = s.scaleIn := by unfold endSubframe; split <;> rfl
@[simp] theorem endSubframe_scaleOut (w : Walk) (s : State) : (endSubframe w s).scaleOut = s.scaleOut := by unfold endSubframe; split <;> rfl
@[simp] theorem endSubframe_fault (w : Walk) (s : State) : (endSubframe w s).fault = s.fault := by unfold endSubframe; split <;> rfl
@[simp] theorem endSubframe_sinValid (w : Walk) (s : State) : (endSubframe w s).sinValid = s.sinValid := by unfold endSubframe; split <;> rfl
@[simp] theorem endSubframe_soutValid (w : Walk) (s : State) : (endSubframe w s).soutValid = s.soutValid := by unfold endSubframe; split <;> rfl
@[simp] theorem endSubframe_frameIn (w : Walk) (s : State) : (endSubframe w s).frameIn = s.frameIn := by unfold endSubframe; split <;> rfl
@[simp] theorem endSubframe_iqOut (w : Walk) (s : State) : (endSubframe w s).iqOut = s.iqOut := by unfold endSubframe; split <;> rfl
@[simp] theorem endSubframe_micOut (w : Walk) (s : State) : (endSubframe w s).micOut = s.micOut := by unfold endSubframe; split <;> rfl
@[simp] theorem endSubframe_cvtIn (w : Walk) (s : State) : (endSubframe w s).cvtIn = s.cvtIn := by unfold endSubframe; split <;> rfl
@[simp] theorem endSubframe_dspIn (w : Walk) (s : State) : (endSubframe w s).dspIn = s.dspIn := by unfold endSubframe; split <;> rfl
@[simp] theorem endSubframe_dspOut (w : Walk) (s : State) : (endSubframe w s).dspOut = s.dspOut := by unfold endSubframe; split <;> rfl
@[simp] theorem endSubframe_audioOut (w : Walk) (s : State) : (endSubframe w s).audioOut = s.audioOut := by unfold endSubframe; split <;> rfl
@[simp] theorem endSubframe_rstI (w : Walk) (s : State) : (endSubframe w s).rstI = s.rstI := by unfold endSubframe; split <;> rfl
@[simp] theorem endSubframe_inputs (w : Walk) (s : State) : (endSubframe w s).inputs = s.inputs := by unfold endSubframe; split <;> rfl
@[simp] theorem endSubframe_response (w : Walk) (s : State) : (endSubframe w s).response = s.response := by unfold endSubframe; split <;> rfl
@[simp] theorem endSubframe_nanDraws (w : Walk) (s : State) : (endSubframe w s).nanDraws = s.nanDraws := by unfold endSubframe; split <;> rfl

/-! ## `convertInElem`: what it leaves alone in every case -/

@[simp] theorem convertInElem_config (i : Nat) (v : Int) (s : State) : (convertInElem i v s).config = s.config := by unfold convertInElem; split <;> rfl
@[simp] theorem convertInElem_decCfg (i : Nat) (v : Int) (s : State) : (convertInElem i v s).decCfg = s.decCfg := by unfold convertInElem; split <;> rfl
@[simp] theorem convertInElem_frameLen (i : Nat) (v : Int) (s : State) : (convertInElem i v s).frameLen = s.frameLen := by unfold convertInElem; split <;> rfl
@[simp] theorem convertInElem_blockLen (i : Nat) (v : Int) (s : State) : (convertInElem i v s).blockLen = s.blockLen := by unfold convertInElem; split <;> rfl
@[simp] theorem convertInElem_scaleIn (i : Nat) (v : Int) (s : State) : (convertInElem i v s).scaleIn = s.scaleIn := by unfold convertInElem; split <;> rfl
@[simp] theorem convertInElem_scaleOut (i : Nat) (v : Int) (s : State) : (convertInElem i v s).scaleOut = s.scaleOut := by unfold convertInElem; split <;> rfl
@[simp] theorem convertInElem_fault (i : Nat) (v : Int) (s : State) : (convertInElem i v s).fault = s.fault := by unfold convertInElem; split <;> rfl
@[simp] theorem convertInElem_sinValid (i : Nat) (v : Int) (s : State) : (convertInElem i v s).sinValid = s.sinValid := by unfold convertInElem; split <;> rfl
@[simp] theorem convertInElem_soutValid (i : Nat) (v : Int) (s : State) : (convertInElem i v s).soutValid = s.soutValid := by unfold convertInElem; split <;> rfl
@[simp] theorem convertInElem_iqCount (i : Nat) (v : Int) (s : State) : (convertInElem i v s).iqCount = s.iqCount := by unfold convertInElem; split <;> rfl
@[simp] theorem convertInElem_micCount (i : Nat) (v : Int) (s : State) : (convertInElem i v s).micCount = s.micCount := by unfold convertInElem; split <;> rfl
@[simp] theorem convertInElem_frameIn (i : Nat) (v : Int) (s : State) : (convertInElem i v s).frameIn = s.frameIn := by unfold convertInElem; split <;> rfl
@[simp] theorem convertInElem_iqOut (i : Nat) (v : Int) (s : State) : (convertInElem i v s).iqOut = s.iqOut := by unfold convertInElem; split <;> rfl
@[simp] theorem convertInElem_micOut (i : Nat) (v : Int) (s : State) : (convertInElem i v s).micOut = s.micOut := by unfold convertInElem; split <;> rfl
@[simp] theorem convertInElem_cvtIn (i : Nat) (v : Int) (s : State) : (convertInElem i v s).cvtIn = s.cvtIn := by unfold convertInElem; split <;> rfl
@[simp] theorem convertInElem_dspOut (i : Nat) (v : Int) (s : State) : (convertInElem i v s).dspOut = s.dspOut := by unfold convertInElem; split <;> rfl
@[simp] theorem convertInElem_audioOut (i : Nat) (v : Int) (s : State) : (convertInElem i v s).audioOut = s.audioOut := by unfold convertInElem; split <;> rfl
@[simp] theorem convertInElem_walk (i : Nat) (v : Int) (s : State) : (convertInElem i v s).walk = s.walk := by unfold convertInElem; split <;> rfl
@[simp] theorem convertInElem_rstI (i : Nat) (v : Int) (s : State) : (convertInElem i v s).rstI = s.rstI := by unfold convertInElem; split <;> rfl
@[simp] theorem convertInElem_inputs (i : Nat) (v : Int) (s : State) : (convertInElem i v s).inputs = s.inputs := by unfold convertInElem; split <;> rfl
@[simp] theorem convertInElem_response (i : Nat) (v : Int) (s : State) : (convertInElem i v s).response = s.response := by unfold convertInElem; split <;> rfl

end Sys2Proof.Machine
end

