-- ==== Sys2Proof/Laws/Ops.lean ====
section
/-! SUPPORT. One lemma for each shared operation: all that it can do. Proofs cite these and do not unfold it. -/

namespace Sys2Proof.Machine

/-! ## Faults -/

theorem faulted_iff (s : State) : s.faulted = true ↔ s.fault ≠ 0#8 := by simp [State.faulted]

theorem not_faulted_iff (s : State) : s.faulted = false ↔ s.fault = 0#8 := by simp [State.faulted]

/-- While faulted, a command changes nothing (42_control.md R153). -/
theorem unlessFaulted_faulted {s : State} (f : State → State) (h : s.fault ≠ 0#8) : unlessFaulted s f = s := by
  simp [unlessFaulted, State.faulted, h]

/-- Unfaulted, a command runs. -/
theorem unlessFaulted_clear {s : State} (f : State → State) (h : s.fault = 0#8) : unlessFaulted s f = f s := by
  simp [unlessFaulted, State.faulted, h]

/-- All that a guarded command can do. -/
theorem unlessFaulted_cases (s : State) (f : State → State) :
    (s.fault ≠ 0#8 ∧ unlessFaulted s f = s) ∨ (s.fault = 0#8 ∧ unlessFaulted s f = f s) := by
  by_cases h : s.fault = 0#8
  · exact .inr ⟨h, unlessFaulted_clear f h⟩
  · exact .inl ⟨h, unlessFaulted_faulted f h⟩

@[simp] theorem raiseOr_some (c : FaultCode) (f : State → State) (s : State) :
    raiseOr (some c) f s = raiseFault c s := rfl

@[simp] theorem raiseOr_none (f : State → State) (s : State) : raiseOr none f s = f s := rfl

/-- No fault code is 0, so every fault is seen (60_exceptions.md R171). -/
theorem code_ne_zero (c : FaultCode) : c.code ≠ 0#8 := by cases c <;> decide

/-- The codes are 0x01 to 0x09 (60_exceptions.md R170). -/
theorem code_le (c : FaultCode) : c.code.toNat ≤ 9 := by cases c <;> decide

/-! ## Payload groups -/

/-- A payload group that answers a next state was the selected one. -/
theorem whenSelected_next {k : GroupKind} {s t : State} {f : Walk → State} (h : whenSelected k s f = .next t) :
    ∃ w, s.walk = some w ∧ (s.walkState w).group = some k ∧ t = f w := by
  unfold whenSelected at h
  split at h
  · cases h
  · next w hw =>
    split at h
    · next hk => exact ⟨w, hw, hk, by cases h; rfl⟩
    · cases h

theorem whenSelected_eq {k : GroupKind} {s : State} {w : Walk} (f : Walk → State) (hw : s.walk = some w)
    (hk : (s.walkState w).group = some k) : whenSelected k s f = .next (f w) := by
  simp [whenSelected, hw, hk]

/-- All that copying an IQ group can do. -/
theorem iqCopyGroup_cases (i q : BitVec 24) (w : Walk) (s : State) :
    (iqCopyOk s.declaredLen w = true ∧ iqCopyGroup i q w s =
      { s with iqOut := s.iqOut.writeSeq w.iqWp (bytes24 i ++ bytes24 q), walk := some w.afterIqCopy }) ∨
    (iqCopyOk s.declaredLen w = false ∧ iqCopyGroup i q w s = geometryAbort s) := by
  unfold iqCopyGroup
  by_cases h : iqCopyOk s.declaredLen w = true
  · exact .inl ⟨h, by rw [if_pos h]⟩
  · exact .inr ⟨by simpa using h, by rw [if_neg h]⟩

/-- All that copying a microphone group can do. -/
theorem micCopyGroup_cases (m : BitVec 16) (w : Walk) (s : State) :
    (micCopyOk s.declaredLen w = true ∧ micCopyGroup m w s =
      { s with micOut := s.micOut.writeSeq w.micWp (bytes16 m), walk := some (w.afterMicCopy s.decim) }) ∨
    (micCopyOk s.declaredLen w = false ∧ micCopyGroup m w s = geometryAbort s) := by
  unfold micCopyGroup
  by_cases h : micCopyOk s.declaredLen w = true
  · exact .inl ⟨h, by rw [if_pos h]⟩
  · exact .inr ⟨by simpa using h, by rw [if_neg h]⟩

/-! ## The walk -/

/-- Which state a position is in, with what that says of the position (40_decode.md R105). -/
theorem classify_cases (n sel : Nat) (w : Walk) :
    (classify n sel w = .pad ∧ w.per = periods n ∧ w.cur < payloadBytes) ∨
    (classify n sel w = .done ∧ w.per = periods n ∧ payloadBytes ≤ w.cur) ∨
    (classify n sel w = .iq ∧ w.per ≠ periods n ∧ w.slot < n ∧ w.slot = sel) ∨
    ((∃ k, classify n sel w = .siq k) ∧ w.per ≠ periods n ∧ w.slot < n ∧ w.slot ≠ sel) ∨
    (classify n sel w = .mic ∧ w.per ≠ periods n ∧ n ≤ w.slot ∧ w.mphase = 0) ∨
    (classify n sel w = .sm w.mphase ∧ w.per ≠ periods n ∧ n ≤ w.slot ∧ w.mphase ≠ 0) := by
  unfold classify
  split
  · next h => split <;> simp_all
  · next h =>
    split
    · next hs =>
      split
      · simp_all
      · split <;> simp_all
    · next hs => split <;> simp_all

/-- The 6 bytes of an IQ group, decoded and encoded again, are the bytes. -/
theorem bytes24_append (a b c : Byte) : bytes24 (a ++ b ++ c) = [a, b, c] := by
  simp only [bytes24, List.cons.injEq, and_true]
  refine ⟨?_, ?_, ?_⟩ <;>
  · apply BitVec.eq_of_getLsbD_eq
    intro i hi
    simp only [BitVec.getLsbD_extractLsb', BitVec.getLsbD_append, hi, decide_true, Bool.true_and]
    grind

/-- The 2 bytes of a microphone group, decoded and encoded again, are the bytes. -/
theorem bytes16_append (a b : Byte) : bytes16 (a ++ b) = [a, b] := by
  simp only [bytes16, List.cons.injEq, and_true]
  refine ⟨?_, ?_⟩ <;>
  · apply BitVec.eq_of_getLsbD_eq
    intro i hi
    simp only [BitVec.getLsbD_extractLsb', BitVec.getLsbD_append, hi, decide_true, Bool.true_and]
    grind

/-- The payload group at the cursor, by the position's state. -/
theorem fetchGroup_eq (w : Walk) (s : State) :
    fetchGroup w s =
      match s.walkState w with
      | .iq => some (.ok (.iqCopy
          (s.frameIn.read w.source ++ s.frameIn.read (w.source + 1) ++ s.frameIn.read (w.source + 2))
          (s.frameIn.read (w.source + 3) ++ s.frameIn.read (w.source + 4) ++ s.frameIn.read (w.source + 5))))
      | .siq _ => some (.ok (.iqSkip
          (s.frameIn.read w.source ++ s.frameIn.read (w.source + 1) ++ s.frameIn.read (w.source + 2))
          (s.frameIn.read (w.source + 3) ++ s.frameIn.read (w.source + 4) ++ s.frameIn.read (w.source + 5))))
      | .mic => some (.ok (.micCopy (s.frameIn.read w.source ++ s.frameIn.read (w.source + 1))))
      | .sm _ => some (.ok (.micSkip (s.frameIn.read w.source ++ s.frameIn.read (w.source + 1))))
      | .pad => some (.ok (.pad
          (s.frameIn.read w.source ++ s.frameIn.read (w.source + 1) ++ s.frameIn.read (w.source + 2) ++
            s.frameIn.read (w.source + 3))))
      | .done => none := by
  unfold fetchGroup
  cases s.walkState w <;> rfl

/-- One round of the walk, by the position's state: the copied bytes are those of FRAME_IN (40_decode.md R106 to
R111). -/
theorem walkStep_eq (w : Walk) (s : State) :
    walkStep w s =
      match s.walkState w with
      | .iq =>
        if iqCopyOk s.declaredLen w then
          { s with iqOut := s.iqOut.writeSeq w.iqWp (s.frameIn.readSeq w.source 6), walk := some w.afterIqCopy }
        else geometryAbort s
      | .siq _ => iqSkipGroup w s
      | .mic =>
        if micCopyOk s.declaredLen w then
          { s with micOut := s.micOut.writeSeq w.micWp (s.frameIn.readSeq w.source 2)
                   walk := some (w.afterMicCopy s.decim) }
        else geometryAbort s
      | .sm _ => micSkipGroup w s
      | .pad => padGroup w s
      | .done => endSubframe w s := by
  unfold walkStep
  rw [fetchGroup_eq]
  cases s.walkState w <;>
    simp only [performGroup, iqCopyGroup, micCopyGroup, bytes24_append, bytes16_append] <;> rfl

theorem runWalk_none (fuel : Nat) {s : State} (h : s.walk = none) : runWalk fuel s = s := by
  cases fuel <;> simp [runWalk, h]

theorem runWalk_some (fuel : Nat) {s : State} {w : Walk} (h : s.walk = some w) :
    runWalk (fuel + 1) s = runWalk fuel (walkStep w s) := by
  simp [runWalk, h]

/-! ## Steps -/

/-- All that a step can do from a walk-free state. -/
theorem step_cases {s t : State} (hw : s.walk = none) (h : step s = .next t) :
    (s.inputs = [] ∧ t = s) ∨
    (∃ w rest i, s.inputs = .txn w :: rest ∧ s.rstI = false ∧ decodeTxn w = .ok i ∧
      exec i (s.consume rest) = .next t) ∨
    (∃ b rest, s.inputs = .rst b :: rest ∧ t = takeRst b (s.consume rest)) ∨
    (∃ rest, s.inputs = .powerOn :: rest ∧ t = applyReset (s.consume rest)) := by
  unfold step at h
  split at h
  · next w hsome => rw [hw] at hsome; cases hsome
  split at h
  · next hi => exact .inl ⟨hi, by cases h; rfl⟩
  · next i rest hi =>
    cases i with
    | txn w =>
      simp only [takeInput, takeTxn] at h
      split at h
      · cases h
      · next hr =>
        split at h
        · cases h
        · next i hd => exact .inr (.inl ⟨w, rest, i, hi, by simpa using hr, hd, h⟩)
    | rst b =>
      simp only [takeInput] at h
      exact .inr (.inr (.inl ⟨b, rest, hi, by cases h; rfl⟩))
    | powerOn =>
      simp only [takeInput] at h
      exact .inr (.inr (.inr ⟨rest, hi, by cases h; rfl⟩))

/-- All that the host port's four transactions can do. -/
theorem execRegRd_next {off : BitVec 20} {s t : State} (h : execRegRd off s = .next t) :
    ∃ r, regAt off = some r ∧ t = s.respond (s.readReg r) := by
  unfold execRegRd at h
  split at h
  · cases h
  · next r hr => exact ⟨r, hr, by cases h; rfl⟩

theorem execRegWr_next {off : BitVec 20} {v : BitVec 64} {s t : State} (h : execRegWr off v s = .next t) :
    (regAt off = some .cmd ∧ command v s = .next t) ∨
    (∃ r, r ≠ .cmd ∧ regAt off = some r ∧ t = s.writeReg r v) := by
  unfold execRegWr at h
  split at h
  · cases h
  · next hr => exact .inl ⟨hr, h⟩
  · next r hne hr => exact .inr ⟨r, fun e => hne e, hr, by cases h; rfl⟩

theorem execBufRd_next {sp : Space} {off : BitVec 20} {s t : State} (h : execBufRd sp off s = .next t) :
    off.toNat < s.sizeOf sp ∧ t = s.respond (s.readSpace sp off.toNat) := by
  unfold execBufRd at h
  split at h
  · next hb => exact ⟨hb, by cases h; rfl⟩
  · cases h

theorem execBufWr_next {sp : Space} {off : BitVec 20} {v : BitVec 64} {s t : State}
    (h : execBufWr sp off v s = .next t) : off.toNat < s.sizeOf sp ∧ t = s.writeSpace sp off.toNat v := by
  unfold execBufWr at h
  split at h
  · next hb => exact ⟨hb, by cases h; rfl⟩
  · cases h

/-- The command a CMD write starts is the one its word decodes to. -/
theorem command_cases (v : BitVec 64) (s : State) :
    (v = 0x0#64 ∧ command v s = execNop s) ∨ (v = 0x1#64 ∧ command v s = execDecode s) ∨
    (v = 0x2#64 ∧ command v s = execCvtIn s) ∨ (v = 0x3#64 ∧ command v s = execCvtOut s) ∨
    (v = 0xF#64 ∧ command v s = execReset s) ∨ (isCommandWord v = false ∧ command v s = execIllegal v s) := by
  unfold command decodeCommand isCommandWord
  by_cases h0 : v = 0x0#64
  · simp [h0]
  by_cases h1 : v = 0x1#64
  · simp [h1]
  by_cases h2 : v = 0x2#64
  · simp [h2]
  by_cases h3 : v = 0x3#64
  · simp [h3]
  by_cases h4 : v = 0xF#64
  · simp [h4]
  simp [h0, h1, h2, h3, h4]

end Sys2Proof.Machine
end

