-- ==== Sys2Proof/Laws/Convert.lean ====
section
/-! SUPPORT. All that the conversion loops can do (41_convert.md R130, R134): what each element becomes, and what
stays. -/

namespace Sys2Proof.Machine

/-- Writing one element of DSP_IN: cvt_in's value, or a drawn quiet NaN. -/
theorem convertInElem_dspIn (i : Nat) (v : Int) (s : State) :
    (convertInElem i v s).dspIn =
      s.dspIn.write i ((cvtInValue s.config s.scaleIn v).getD (quietNaN (Config.nanDraw s.nanDraws))) := by
  unfold convertInElem
  split <;> simp_all

theorem convertInElem_eq (i : Nat) (v : Int) (s : State) :
    convertInElem i v s =
      { s with dspIn := (convertInElem i v s).dspIn, nanDraws := (convertInElem i v s).nanDraws } := by
  unfold convertInElem
  split <;> rfl

theorem convertInPair_eq (k : Nat) (s : State) :
    convertInPair k s =
      { s with dspIn := (convertInPair k s).dspIn, nanDraws := (convertInPair k s).nanDraws } := by
  unfold convertInPair
  rw [convertInElem_eq, convertInElem_eq (2 * k)]

/-- The inbound loop changes nothing but DSP_IN and the count of NaNs drawn. -/
theorem convertInFrom_eq (n k : Nat) (s : State) :
    convertInFrom n k s =
      { s with dspIn := (convertInFrom n k s).dspIn, nanDraws := (convertInFrom n k s).nanDraws } := by
  induction n generalizing k s with
  | zero => rfl
  | succ n ih =>
    rw [convertInFrom, ih, convertInPair_eq]

/-- The outbound loop changes nothing but AUDIO_OUT. -/
theorem convertOutFrom_eq (n k : Nat) (s : State) :
    convertOutFrom n k s = { s with audioOut := (convertOutFrom n k s).audioOut } := by
  induction n generalizing k s with
  | zero => rfl
  | succ n ih =>
    rw [convertOutFrom, ih]
    rfl

/-- A pair's write leaves every element but its two alone. -/
theorem convertInPair_read_other (k a : Nat) (s : State) (h : a < 2 * k ∨ 2 * k + 2 ≤ a) :
    (convertInPair k s).dspIn.read a = s.dspIn.read a := by
  unfold convertInPair
  rw [convertInElem_dspIn, Memory.read_write_other _ _ (by omega), convertInElem_dspIn,
    Memory.read_write_other _ _ (by omega)]

/-- Rounds from pair k on leave every element outside their pairs alone. -/
theorem convertInFrom_read_other (n k a : Nat) (s : State) (h : a < 2 * k ∨ 2 * (k + n) ≤ a) :
    (convertInFrom n k s).dspIn.read a = s.dspIn.read a := by
  induction n generalizing k s with
  | zero => rfl
  | succ n ih => rw [convertInFrom, ih _ _ (by omega), convertInPair_read_other _ _ _ (by omega)]

theorem convertInPair_wf (k : Nat) (s : State) (h : s.dspIn.wf = true) : (convertInPair k s).dspIn.wf = true := by
  unfold convertInPair
  rw [convertInElem_dspIn, convertInElem_dspIn]
  exact Memory.wf_write _ _ _ (Memory.wf_write _ _ _ h)

theorem convertInFrom_wf (n k : Nat) (s : State) (h : s.dspIn.wf = true) :
    (convertInFrom n k s).dspIn.wf = true := by
  induction n generalizing k s with
  | zero => exact h
  | succ n ih => exact ih _ _ (convertInPair_wf k s h)

theorem convertInPair_below (k m : Nat) (s : State) (h : s.dspIn.below m = true) (hk : 2 * k + 2 ≤ m) :
    (convertInPair k s).dspIn.below m = true := by
  unfold convertInPair
  rw [convertInElem_dspIn, convertInElem_dspIn]
  exact Memory.below_write _ _ _ _ (Memory.below_write _ _ _ _ h (by omega)) (by omega)

theorem convertInFrom_below (n k m : Nat) (s : State) (h : s.dspIn.below m = true) (hk : 2 * (k + n) ≤ m) :
    (convertInFrom n k s).dspIn.below m = true := by
  induction n generalizing k s with
  | zero => exact h
  | succ n ih => exact ih _ _ (convertInPair_below k m s h (by omega)) (by omega)

/-- Rounds of the outbound loop leave every byte outside their pairs alone. -/
theorem convertOutFrom_read_other (n k a : Nat) (s : State) (h : a < 4 * k ∨ 4 * (k + n) ≤ a) :
    (convertOutFrom n k s).audioOut.read a = s.audioOut.read a := by
  induction n generalizing k s with
  | zero => rfl
  | succ n ih =>
    rw [convertOutFrom, ih _ _ (by omega), convertOutPair_audioOut,
      Memory.read_writeSeq_other _ _ _ _ (by simp [bytes16]; omega)]

theorem convertOutFrom_wf (n k : Nat) (s : State) (h : s.audioOut.wf = true) :
    (convertOutFrom n k s).audioOut.wf = true := by
  induction n generalizing k s with
  | zero => exact h
  | succ n ih => exact ih _ _ (Memory.wf_writeSeq _ _ _ h)

theorem convertOutFrom_below (n k m : Nat) (s : State) (h : s.audioOut.below m = true) (hk : 4 * (k + n) ≤ m) :
    (convertOutFrom n k s).audioOut.below m = true := by
  induction n generalizing k s with
  | zero => exact h
  | succ n ih =>
    refine ih _ _ (Memory.below_writeSeq _ _ _ _ h ?_) (by omega)
    simp [bytes16]
    omega

end Sys2Proof.Machine
end

