-- ==== Sys2Proof/Machine/Script.lean ====
section
/-! DEFINITION. The host-script syntax and the pseudo-instructions of 30_encoding.md R84 and R85, as the transactions
they stand for. -/

namespace Sys2Proof.Machine

/-- The offset of a register (10_state.md R21); for the reserved ones, which have no names there, the first (DESIGN
CHOICE, log 17). -/
def Reg.offset : Reg → BitVec 20
  | .cmd => 0x00#20
  | .status => 0x08#20
  | .decCfg => 0x10#20
  | .frameLen => 0x18#20
  | .blockLen => 0x20#20
  | .scaleIn => 0x28#20
  | .scaleOut => 0x30#20
  | .iqCount => 0x38#20
  | .micCount => 0x40#20
  | .params => 0x48#20
  | .reserved => 0x50#20

/-- OFFSET of a line's element offset. DESIGN CHOICE, log 17: R84 does not say what a line stands for whose offset does
not fit OFFSET's 20 bits (R82); the low 20 bits are taken. -/
def elemOffset (off : Nat) : BitVec 20 := BitVec.ofNat 20 off

/-! ## Transactions (R84) -/

/-- `rd REG`. -/
def rd (r : Reg) : Instr := .regRd r.offset

/-- `wr REG, v`. -/
def wr (r : Reg) (v : Word) : Instr := .regWr r.offset v

/-- `rdb SPACE[off]`; an offset beyond 20 bits: log 17. -/
def rdb (sp : Space) (off : Nat) : Instr := .bufRd sp (elemOffset off)

/-- `wrb SPACE[off], b`; an offset beyond 20 bits: log 17. -/
def wrb (sp : Space) (off : Nat) (b : Byte) : Instr := .bufWr sp (elemOffset off) (b.setWidth 64)

/-- `rdf SPACE[i]`; an index beyond 20 bits: log 17. -/
def rdf (sp : Space) (i : Nat) : Instr := .bufRd sp (elemOffset i)

/-- `wrf SPACE[i], bits`; an index beyond 20 bits: log 17. -/
def wrf (sp : Space) (i : Nat) (bits : Word) : Instr := .bufWr sp (elemOffset i) bits

/-! ## Pseudo-instructions (R85) -/

/-- `nop`. -/
def nopLine : Instr := wr .cmd 0x0#64

/-- `decode`. -/
def decodeLine : Instr := wr .cmd 0x1#64

/-- `cvtin`. -/
def cvtinLine : Instr := wr .cmd 0x2#64

/-- `cvtout`. -/
def cvtoutLine : Instr := wr .cmd 0x3#64

/-- `reset`. -/
def resetLine : Instr := wr .cmd 0xF#64

/-- `cfg n, sel, rate`; a number beyond 64 bits: log 17. -/
def cfgLine (n sel rate : Nat) : Instr := wr .decCfg (BitVec.ofNat 64 (n + 4 * sel + 16 * rate))

/-- `wrbs SPACE[off], b0 b1 ... bk`. -/
def wrbsLines (sp : Space) (off : Nat) : List Byte → List Instr
  | [] => []
  | b :: rest => wrb sp off b :: wrbsLines sp (off + 1) rest

/-- `fill SPACE[off], n, b`. -/
def fillLines (sp : Space) (off n : Nat) (b : Byte) : List Instr := wrbsLines sp off (List.replicate n b)

/-- `rdbs SPACE[off], n`. -/
def rdbsLines (sp : Space) (off : Nat) : Nat → List Instr
  | 0 => []
  | n + 1 => rdb sp off :: rdbsLines sp (off + 1) n

/-- `move SRC[o1], DST[o2], n` and `movef`, as they run from state `s`: each read's response is what the write after
it carries, so the lines depend on the contents they meet (log 14; offsets beyond 20 bits: log 17). -/
def moveLines (src : Space) (o1 : Nat) (dst : Space) (o2 : Nat) : Nat → State → List Instr
  | 0, _ => []
  | n + 1, s =>
    let v := s.readSpace src (elemOffset o1).toNat
    rdb src o1 :: .bufWr dst (elemOffset o2) v ::
      moveLines src (o1 + 1) dst (o2 + 1) n (s.writeSpace dst (elemOffset o2).toNat v)

/-- A line as the host sends it; a payload group is no transaction. -/
def lineInput (i : Instr) : Option HostInput :=
  match encode i with
  | .transaction w => some (.txn w)
  | .command w => some (.txn (txnWord 1#2 0#3 0#20 w))
  | .group _ => none

/-- `s` with a script's lines still to arrive, after what was there. -/
def State.withScript (s : State) (lines : List Instr) : State :=
  { s with inputs := s.inputs ++ lines.filterMap lineInput }

end Sys2Proof.Machine
end

