-- ==== Sys2Proof/Laws/PerInstr.lean ====
section
/-! SUPPORT. Facts about every instruction as syntax, one lemma per constructor. -/

namespace Sys2Proof.Laws

/-- How many bits an encoded instruction has. -/
def encodedBits : Encoded → Nat
  | .command _ => 64
  | .transaction _ => 96
  | .group bs => 8 * bs.length

/-- How many bits opcode_table.json gives an instruction's row: 64 for command words, 96 for host transactions, and
the group's width for payload groups. -/
def rowBits : Instr → Nat
  | .nop | .decode | .cvtIn | .cvtOut | .reset | .illegal _ => 64
  | .regRd _ | .regWr _ _ | .bufRd _ _ | .bufWr _ _ _ => 96
  | .iqCopy _ _ | .iqSkip _ _ => 48
  | .micCopy _ | .micSkip _ => 16
  | .pad _ => 32

/-- The encoder gives every instruction its row's width. -/
def EncodeWidth.Statement (i : Instr) : Prop := encodedBits (encode i) = rowBits i

theorem EncodeWidth.nop : EncodeWidth.Statement .nop := rfl
theorem EncodeWidth.decode : EncodeWidth.Statement .decode := rfl
theorem EncodeWidth.cvtIn : EncodeWidth.Statement .cvtIn := rfl
theorem EncodeWidth.cvtOut : EncodeWidth.Statement .cvtOut := rfl
theorem EncodeWidth.reset : EncodeWidth.Statement .reset := rfl
theorem EncodeWidth.illegal (w : BitVec 64) : EncodeWidth.Statement (.illegal w) := rfl
theorem EncodeWidth.regRd (off : BitVec 20) : EncodeWidth.Statement (.regRd off) := rfl
theorem EncodeWidth.regWr (off : BitVec 20) (v : BitVec 64) : EncodeWidth.Statement (.regWr off v) := rfl
theorem EncodeWidth.bufRd (sp : Space) (off : BitVec 20) : EncodeWidth.Statement (.bufRd sp off) := rfl
theorem EncodeWidth.bufWr (sp : Space) (off : BitVec 20) (data : BitVec 64) :
    EncodeWidth.Statement (.bufWr sp off data) := rfl
theorem EncodeWidth.iqCopy (i q : BitVec 24) : EncodeWidth.Statement (.iqCopy i q) := rfl
theorem EncodeWidth.iqSkip (i q : BitVec 24) : EncodeWidth.Statement (.iqSkip i q) := rfl
theorem EncodeWidth.micCopy (m : BitVec 16) : EncodeWidth.Statement (.micCopy m) := rfl
theorem EncodeWidth.micSkip (m : BitVec 16) : EncodeWidth.Statement (.micSkip m) := rfl
theorem EncodeWidth.pad (p : BitVec 32) : EncodeWidth.Statement (.pad p) := rfl

end Sys2Proof.Laws
end

