-- ==== Sys2Proof/Laws/Reset.lean ====
section
/-! SUPPORT. The reset state's memory has the canonical form, and reset clears every buffer. -/

namespace Sys2Proof.Machine

/-- Every buffer of the state after reset is in canonical form. -/
theorem reset_buffers_wf :
    State.reset.frameIn.wf = true ∧ State.reset.iqOut.wf = true ∧ State.reset.micOut.wf = true ∧
    State.reset.cvtIn.wf = true ∧ State.reset.dspIn.wf = true ∧ State.reset.dspOut.wf = true ∧
    State.reset.audioOut.wf = true := ⟨rfl, rfl, rfl, rfl, rfl, rfl, rfl⟩

/-- After a reset every element of every buffer reads as zero (20_memory.md R68). -/
theorem applyReset_readSpace (s : State) (sp : Space) (off : Nat) : (applyReset s).readSpace sp off = 0#64 := by
  cases sp <;> rfl

/-- A host write keeps every buffer in canonical form. -/
theorem writeSpace_wf (s : State) (sp : Space) (off : Nat) (v : Word)
    (h : s.frameIn.wf = true ∧ s.iqOut.wf = true ∧ s.micOut.wf = true ∧ s.cvtIn.wf = true ∧ s.dspIn.wf = true ∧
      s.dspOut.wf = true ∧ s.audioOut.wf = true) :
    (s.writeSpace sp off v).frameIn.wf = true ∧ (s.writeSpace sp off v).iqOut.wf = true ∧
    (s.writeSpace sp off v).micOut.wf = true ∧ (s.writeSpace sp off v).cvtIn.wf = true ∧
    (s.writeSpace sp off v).dspIn.wf = true ∧ (s.writeSpace sp off v).dspOut.wf = true ∧
    (s.writeSpace sp off v).audioOut.wf = true := by
  obtain ⟨h1, h2, h3, h4, h5, h6, h7⟩ := h
  cases sp <;> simp only [State.writeSpace] <;>
    refine ⟨?_, ?_, ?_, ?_, ?_, ?_, ?_⟩ <;> first | assumption | exact Memory.wf_write _ _ _ (by assumption)

/-- A host write is read back, an element of a byte space as its low byte, and every other element is as before. -/
theorem readSpace_writeSpace_other (s : State) (sp sp' : Space) (off a : Nat) (v : Word)
    (h : sp' ≠ sp ∨ a ≠ off) : (s.writeSpace sp off v).readSpace sp' a = s.readSpace sp' a := by
  by_cases hs : sp' = sp
  · subst hs
    have ha : a ≠ off := h.resolve_left (fun e => e rfl)
    cases sp' <;> simp only [State.writeSpace, State.readSpace, Memory.read_write_other _ _ ha]
  · cases sp <;> cases sp' <;> first | rfl | exact absurd rfl hs

end Sys2Proof.Machine
end

