-- ==== Sys2Proof/Laws/Walk.lean ====
section
/-! SUPPORT. All that a walk can write (40_decode.md R104 to R111), whatever its positions: the two output buffers,
the counts, FAULT and the walk's own registers. -/

namespace Sys2Proof.Machine

/-- One round changes nothing but IQ_OUT, MIC_OUT, the counts, FAULT and the walk. -/
theorem walkStep_frame (w : Walk) (s : State) :
    walkStep w s =
      { s with
        iqOut := (walkStep w s).iqOut, micOut := (walkStep w s).micOut
        iqCount := (walkStep w s).iqCount, micCount := (walkStep w s).micCount
        fault := (walkStep w s).fault, walk := (walkStep w s).walk } := by
  rw [walkStep_eq]
  cases s.walkState w with
  | iq => simp only; split <;> rfl
  | siq k => rfl
  | mic => simp only; split <;> rfl
  | sm j => rfl
  | pad => rfl
  | done => simp only [endSubframe]; split <;> rfl

/-- A walk changes nothing but IQ_OUT, MIC_OUT, the counts, FAULT and its registers. -/
theorem runWalk_frame (fuel : Nat) (s : State) :
    runWalk fuel s =
      { s with
        iqOut := (runWalk fuel s).iqOut, micOut := (runWalk fuel s).micOut
        iqCount := (runWalk fuel s).iqCount, micCount := (runWalk fuel s).micCount
        fault := (runWalk fuel s).fault, walk := (runWalk fuel s).walk } := by
  induction fuel generalizing s with
  | zero => rfl
  | succ fuel ih =>
    cases hw : s.walk with
    | none => rw [runWalk_none _ hw]
    | some w => rw [runWalk_some _ hw, ih, walkStep_frame]

theorem walkStep_wf (w : Walk) (s : State) (h : s.iqOut.wf = true ∧ s.micOut.wf = true) :
    (walkStep w s).iqOut.wf = true ∧ (walkStep w s).micOut.wf = true := by
  rw [walkStep_eq]
  cases s.walkState w with
  | iq =>
    simp only
    split
    · exact ⟨Memory.wf_writeSeq _ _ _ h.1, h.2⟩
    · exact h
  | siq k => exact h
  | mic =>
    simp only
    split
    · exact ⟨h.1, Memory.wf_writeSeq _ _ _ h.2⟩
    · exact h
  | sm j => exact h
  | pad => exact h
  | done => simpa using h

/-- A walk keeps the output buffers in canonical form. -/
theorem runWalk_wf (fuel : Nat) (s : State) (h : s.iqOut.wf = true ∧ s.micOut.wf = true) :
    (runWalk fuel s).iqOut.wf = true ∧ (runWalk fuel s).micOut.wf = true := by
  induction fuel generalizing s with
  | zero => exact h
  | succ fuel ih =>
    cases hw : s.walk with
    | none => rw [runWalk_none _ hw]; exact h
    | some w => rw [runWalk_some _ hw]; exact ih _ (walkStep_wf w s h)

theorem walkStep_below (w : Walk) (s : State) (h : s.iqOut.below 756 = true ∧ s.micOut.below 252 = true) :
    (walkStep w s).iqOut.below 756 = true ∧ (walkStep w s).micOut.below 252 = true := by
  rw [walkStep_eq]
  cases s.walkState w with
  | iq =>
    simp only
    split
    · next hok =>
      simp only [iqCopyOk, Bool.and_eq_true, iqOutBytes] at hok
      exact ⟨Memory.below_writeSeq _ _ _ _ h.1 (by rw [Memory.readSeq_length]; exact of_decide_eq_true hok.2), h.2⟩
    · exact h
  | siq k => exact h
  | mic =>
    simp only
    split
    · next hok =>
      simp only [micCopyOk, Bool.and_eq_true, micOutBytes] at hok
      exact ⟨h.1, Memory.below_writeSeq _ _ _ _ h.2 (by rw [Memory.readSeq_length]; exact of_decide_eq_true hok.2)⟩
    · exact h
  | sm j => exact h
  | pad => exact h
  | done => simpa using h

/-- A walk writes within the output buffers' sizes. -/
theorem runWalk_below (fuel : Nat) (s : State) (h : s.iqOut.below 756 = true ∧ s.micOut.below 252 = true) :
    (runWalk fuel s).iqOut.below 756 = true ∧ (runWalk fuel s).micOut.below 252 = true := by
  induction fuel generalizing s with
  | zero => exact h
  | succ fuel ih =>
    cases hw : s.walk with
    | none => rw [runWalk_none _ hw]; exact h
    | some w => rw [runWalk_some _ hw]; exact ih _ (walkStep_below w s h)

end Sys2Proof.Machine
end

