-- ==== Sys2Proof/Tests/Slice0.lean ====
section
/-! SUPPORT. The model's own tests: the well-formedness smoke tests, words written out from the spec's encodings,
vectors of 95_test_vectors.md, and for every statement with hypotheses a witness that meets them. -/

namespace Sys2Proof.Tests

-- One theorem at a time: each holds a stack of its own while it waits for the kernel.
set_option Elab.async false

open Sys2Proof Sys2Proof.Machine Sys2Proof.Safety Sys2Proof.Claims

/-! ## Small states -/

/-- The reset state of a chip with the default parameters and MAX_BLOCK_LEN = 16. -/
def chip : State :=
  { State.reset with
    config :=
      { maxBlockLen := 16, strictSync := true, micDecim384 := .eight, cvtInRule := .standard, cvtOutRule := .standard } }

/-- The sync bytes of a WireFrame (30_encoding.md R70), with P1's bytes in both payloads (95_test_vectors.md P1). -/
def frameP1 : Memory 8 :=
  [(0, 0xEF), (1, 0xFE), (2, 0x01), (3, 0x06), (8, 0x7F), (9, 0x7F), (10, 0x7F),
   (16, 0x12), (17, 0x34), (18, 0x56), (19, 0xFE), (20, 0xDC), (21, 0xBA), (22, 0x11), (23, 0x22),
   (520, 0x7F), (521, 0x7F), (522, 0x7F),
   (528, 0x01), (529, 0x02), (530, 0x03), (531, 0x80), (534, 0x33), (535, 0x44)]

/-- A chip with that frame declared and a DEC_CFG. -/
def framed (cfg : BitVec 7) : State := { chip with decCfg := cfg, frameLen := 1032, frameIn := frameP1 }

/-- A chip with both scales written, 2^-23 in and 32767.0 out, and B = 1. -/
def scaled : State :=
  { chip with blockLen := 1, scaleIn := 0x3E80000000000000, sinValid := true
              scaleOut := 0x40DFFFC000000000, soutValid := true }

/-- A chip with a DECODE of `framed cfg` at a position. -/
def walking (cfg : BitVec 7) (w : Walk) : State := { framed cfg with walk := some w }

/-- What a test looks at in the state an instruction leaves; none where it stops. -/
def after {α : Type} (o : Host.Outcome State Fault Refusal) (f : State → α) : Option α :=
  match o with
  | .next t => some (f t)
  | .fault _ => none
  | .refused _ => none

/-- Why an instruction stops; none where it does not. -/
def stop (o : Host.Outcome State Fault Refusal) : Option Refusal :=
  match o with
  | .refused r => some r
  | .next _ => none
  | .fault _ => none

/-! ## Well-formedness smoke tests: an ill-formed term for each check -/

theorem test_wf_illegal_refuses_command_word : (Instr.illegal 0x3#64).wellFormed 16 = false := by decide
theorem test_wf_illegal_takes_other_word : (Instr.illegal 0x10#64).wellFormed 16 = true := by decide
theorem test_wf_regRd_refuses_unaligned : (Instr.regRd 0x04#20).wellFormed 16 = false := by decide
theorem test_wf_regRd_refuses_high : (Instr.regRd 0x80#20).wellFormed 16 = false := by decide
theorem test_wf_regWr_refuses_unaligned : (Instr.regWr 0x11#20 0#64).wellFormed 16 = false := by decide
theorem test_wf_regWr_refuses_high : (Instr.regWr 0x80#20 0#64).wellFormed 16 = false := by decide
theorem test_wf_bufRd_refuses_frame_end : (Instr.bufRd .frameIn 1032#20).wellFormed 16 = false := by decide
theorem test_wf_bufWr_refuses_block_end : (Instr.bufWr .dspIn 32#20 0#64).wellFormed 16 = false := by decide

/-! ## Words written out from the spec's encodings (30_encoding.md R81, R82; 95_test_vectors.md section 3) -/

theorem test_decode_nop : decodeCommand 0x0000000000000000#64 = .nop := by decide
theorem test_decode_decode : decodeCommand 0x0000000000000001#64 = .decode := by decide
theorem test_decode_cvtIn : decodeCommand 0x0000000000000002#64 = .cvtIn := by decide
theorem test_decode_cvtOut : decodeCommand 0x0000000000000003#64 = .cvtOut := by decide
theorem test_decode_reset : decodeCommand 0x000000000000000F#64 = .reset := by decide
theorem test_decode_illegal : decodeCommand 0x8000000000000001#64 = .illegal 0x8000000000000001#64 := by decide
theorem test_decode_regRd : decodeTxn 0x000000000000000000003800#96 = .ok (.regRd 0x38#20) := by decide
theorem test_decode_regWr :
    decodeTxn 0x3E8000000000000000002801#96 = .ok (.regWr 0x28#20 0x3E80000000000000#64) := by decide
theorem test_decode_bufRd : decodeTxn 0x00000000000000000000030A#96 = .ok (.bufRd .iqOut 3#20) := by decide
theorem test_decode_bufWr : decodeTxn 0x000000000000007F00020807#96 = .ok (.bufWr .frameIn 520#20 0x7F#64) := by decide
theorem test_decode_regRd_with_space : decodeTxn 0x000000000000000000000804#96 = .error .regSpace := by decide
theorem test_decode_bufRd_without_space : decodeTxn 0x000000000000000000000002#96 = .error .bufSpace := by decide
theorem test_decode_reserved_bit : decodeTxn 0x000000000000000010000800#96 = .error .reservedBits := by decide
theorem test_decode_iqCopy :
    decodeGroup .iqCopy [0x7F, 0xFF, 0xFF, 0x80, 0x00, 0x00] = .ok (.iqCopy 0x7FFFFF#24 0x800000#24) := by decide
theorem test_decode_iqSkip :
    decodeGroup .iqSkip [0x01, 0x02, 0x03, 0xFE, 0xDC, 0xBA] = .ok (.iqSkip 0x010203#24 0xFEDCBA#24) := by decide
theorem test_decode_micCopy : decodeGroup .micCopy [0x16, 0x17] = .ok (.micCopy 0x1617#16) := by decide
theorem test_decode_micSkip : decodeGroup .micSkip [0x1E, 0x1F] = .ok (.micSkip 0x1E1F#16) := by decide
theorem test_decode_pad : decodeGroup .pad [0x04, 0x05, 0x06, 0x07] = .ok (.pad 0x04050607#32) := by decide
theorem test_decode_group_length : decodeGroup .micCopy [0x16] = .error .groupLength := by decide
theorem test_encode_wrb : encode (wrb .iqOut 755 0xAA) = .transaction 0x00000000000000AA0002F30B#96 := by decide
theorem test_encode_cfg : encode (cfgLine 3 1 2) = .transaction 0x000000000000002700001001#96 := by decide
theorem test_table_word_txn : decodeTableWord 96 0x1800 = some (.regRd 0x18#20) := by decide
theorem test_table_word_group : decodeTableWord 48 0x7FFFFF800000 = some (.iqCopy 0x7FFFFF#24 0x800000#24) := by decide

/-! ## One step (95_test_vectors.md sections 2 and 3) -/

theorem test_nop_R15 : after (exec .nop (framed 1)) (fun t => t == framed 1) = some true := by decide +kernel

/-- P1: the first groups of both sub-frames, and the counts. -/
theorem test_decode_P1 :
    after (exec .decode (framed 0x01)) (fun t => (t.iqOut.readSeq 0 7, t.iqOut.readSeq 378 6, t.micOut.readSeq 126 2,
      t.iqCount.toNat, t.micCount.toNat, t.fault.toNat)) =
    some ([0x12, 0x34, 0x56, 0xFE, 0xDC, 0xBA, 0], [0x01, 0x02, 0x03, 0x80, 0, 0], [0x33, 0x44], 126, 126, 0) := by
  decide +kernel

/-- D-F2: CFG_RX_SEL before CFG_RATE and FRAME_SIZE. -/
theorem test_decode_DF2 :
    after (exec .decode { chip with decCfg := 0x7F }) (fun t => t.status) = some 0x03#64 := by decide +kernel

/-- P2: +8388607 and -8388608 at 2^-23. -/
theorem test_cvtIn_P2 :
    after (exec .cvtIn { scaled with cvtIn := [(0, 0x7F), (1, 0xFF), (2, 0xFF), (3, 0x80)] })
      (fun t => (t.dspIn, t.status)) =
    some ([(0, 0x3FEFFFFFC0000000#64), (1, 0xBFF0000000000000#64)], 0x300#64) := by decide +kernel

/-- V-F3: the scale is not written. -/
theorem test_cvtIn_VF3 : after (exec .cvtIn { chip with blockLen := 1 }) (fun t => t.status) = some 0x09#64 := by
  decide +kernel

/-- R134's example: 0.5 and -0.5 at 32767.0, truncated toward zero. -/
theorem test_cvtOut_example :
    after (exec .cvtOut { scaled with dspOut := [(0, 0x3FE0000000000000), (1, 0xBFE0000000000000)] })
      (fun t => t.audioOut.readSeq 0 4) = some [0x3F, 0xFF, 0xC0, 0x01] := by decide +kernel

theorem test_cvtOut_blockSize : after (exec .cvtOut { chip with soutValid := true }) (fun t => t.status) = some 0x208#64 := by
  decide +kernel

/-- R-14: RESET while faulted. -/
theorem test_reset_R14 :
    after (exec (.regWr 0x00 0xF) { framed 0x01 with fault := 1 }) (fun t => t == chip) = some true := by
  decide +kernel

theorem test_illegal_R9 : after (exec (.regWr 0x00 0x4) chip) (fun t => (t.status, t.faultO)) = some (0x01#64, true) := by
  decide +kernel

theorem test_illegal_R12_ignored :
    after (exec (.illegal 0x1F) { chip with fault := 3 }) (fun t => t.fault) = some 3 := by decide +kernel

/-- R-1 with MAX_BLOCK_LEN = 16. -/
theorem test_regRd_params_R1 : after (exec (.regRd 0x48) chip) (fun t => t.response) = some (some 0x10010#64) := by
  decide +kernel

theorem test_regRd_refused_R8 : stop (exec (.regRd 0x04) chip) = some .regOffset := by decide +kernel

/-- R-2: all 7 bits stored, the reserved ones dropped. -/
theorem test_regWr_R2 : after (exec (.regWr 0x10 0xFFFF) chip) (fun t => t.readReg .decCfg) = some 0x7F#64 := by
  decide +kernel

/-- R-5: a signalling NaN, stored as written, and SIN_VALID. -/
theorem test_regWr_R5 :
    after (exec (.regWr 0x28 0x7FF4000000000001) chip) (fun t => (t.scaleIn, t.status)) =
      some (0x7FF4000000000001#64, 0x100#64) := by decide +kernel

/-- R-16: DATA[63:8] is ignored. -/
theorem test_bufWr_R16 : after (exec (.bufWr .frameIn 16 0x1234) chip) (fun t => t.frameIn) = some [(16, 0x34#8)] := by
  decide +kernel

theorem test_bufRd_R8 : stop (exec (.bufRd .frameIn 1032) chip) = some .bufOffset := by decide +kernel

theorem test_bufRd_byte : after (exec (.bufRd .frameIn 520) (framed 1)) (fun t => t.response) = some (some 0x7F#64) := by
  decide +kernel

theorem test_iqCopy_R106 :
    after (exec (.iqCopy 0xFEDCBA 0x010203) (walking 0x01 Walk.start)) (fun t => (t.iqOut.readSeq 0 6, t.walk)) =
      some ([0xFE, 0xDC, 0xBA, 0x01, 0x02, 0x03],
        some { Walk.start with iqWp := 6, cur := 6, slot := 1 }) := by decide +kernel

theorem test_iqSkip_R107 :
    after (exec (.iqSkip 0 0) (walking 0x06 Walk.start)) (fun t => (t.iqOut, t.walk)) =
      some ([], some { Walk.start with cur := 6, slot := 1 }) := by decide +kernel

theorem test_micCopy_R108 :
    after (exec (.micCopy 0x1617) (walking 0x11 { Walk.start with cur := 6, slot := 1 })) (fun t => (t.micOut, t.walk)) =
      some ([(0, 0x16#8), (1, 0x17#8)], some { Walk.start with cur := 8, mphase := 1, per := 1, micWp := 2 }) := by
  decide +kernel

theorem test_micSkip_R109 :
    after (exec (.micSkip 0x1E1F) (walking 0x11 { Walk.start with cur := 14, slot := 1, mphase := 1, per := 1 }))
      (fun t => (t.micOut, t.walk)) = some ([], some { Walk.start with cur := 16, per := 2 }) := by decide +kernel

theorem test_pad_R110 :
    after (exec (.pad 0xAAAAAAAA) (walking 0x03 { Walk.start with cur := 500, per := 25 })) (fun t => t.walk) =
      some (some { Walk.start with cur := 504, per := 25 }) := by decide +kernel

/-- R-12, as a step: a command ignored while faulted. -/
theorem test_step_takes_transaction :
    after (step { chip with fault := 1, inputs := [.txn 0x000000000000000100000001#96, .txn 0#96] })
      (fun t => (t.fault, t.inputs)) = some (1, [.txn 0#96]) := by decide +kernel

theorem test_step_refused_under_rst :
    stop (step { chip with rstI := true, inputs := [.txn 0x000000000000000000000800#96] }) = some .resetAsserted := by
  decide +kernel

/-- A word of each of the table's widths, placed right after reset, runs. -/
theorem test_placed_words_run :
    ([(64, 0x1), (64, 0x7), (96, 0x800), (96, 0x6), (48, 0x7FFFFF800000), (16, 0x1617), (32, 0xAAAAAAAA)].map
      (fun p : Nat × Nat => (stop (step (State.reset.withFetchWord p.1 p.2))).isSome)).any id = false := by decide +kernel

/-! ## Conversion vectors (95_test_vectors.md 2.2, 2.3) -/

theorem test_cvtIn_vectors :
    ([(0x3E80000000000000, -1), (0x3E80000000000000, 1193046), (0x3E80000000000000, -74566),
      (0x3E80000020000040, 8388607), (0x3E80000020000040, -8388608), (0xBFF0000000000000, 0),
      (0x0000000000000001, 8388607), (0x7F10000000000000, -8388608), (0x7FF0000000000000, 0)].map
        (fun p : BitVec 64 × Int => cvtInStandard p.1 p.2)) =
      [some 0xBE80000000000000, some 0x3FC2345600000000, some 0xBF82346000000000, some 0x3FF0000000000000,
       some 0xBFF0000020000040, some 0x8000000000000000, some 0x00000000007FFFFF, some 0xFFF0000000000000, none] := by
  decide +kernel

theorem test_cvtOut_vectors :
    ([0x3FF0000000000000, 0xBFF0000000000000, 0xBFE0000000000000, 0xC000000000000000, 0x7FF8000000000000,
      0xFFF0000000000000, 0x8000000000000000, 0x3FEFFFFFC0000000, 0xBE80000000000000, 0x3FE0001000000000].map
        (fun x : BitVec 64 => (cvtOutStandard 0x40DFFFC000000000 x, cvtOutStandard 0x40E0000000000000 x))) =
      [(32767, 32767), (-32767, -32768), (-16383, -16384), (-32768, -32768), (0, 0), (-32768, -32768), (0, 0),
       (32766, 32767), (0, 0), (16383, 16384)] := by decide +kernel

end Sys2Proof.Tests
end

