-- ==== Sys2Proof/Tests/Witnesses.lean ====
section
/-! SUPPORT. For every statement with hypotheses, a concrete state and operands that meet all of them together; for one
with several clauses, one for each clause, at a boundary of its range. -/

namespace Sys2Proof.Tests

-- One theorem at a time: each holds a stack of its own while it waits for the kernel.
set_option Elab.async false

open Sys2Proof Sys2Proof.Machine Sys2Proof.Safety Sys2Proof.Claims

/-- A chip with one transaction to take. -/
def taking (w : BitVec 96) : State := { framed 0x01 with inputs := [.txn w] }

/-! ## Encoding and steps -/

theorem witness_DecodeEncodeRoundTrip :
    (Instr.bufWr .iqOut 755#20 0xAA#64).wellFormed 16 = true ∧ (Instr.regRd 0x78#20).wellFormed 16 = true ∧
    (Instr.illegal 0xE#64).wellFormed 16 = true := by decide

theorem witness_TransactionWordsAreUnique :
    decodeTxn 0x00000000000000AA0002F30B#96 = .ok (.bufWr .iqOut 755#20 0xAA#64) ∧
    decodeTxn 0xFFFFFFFFFFFFFFFF00000800#96 = .ok (.regRd 0x08#20) := by decide

theorem witness_CommandWordsMatchInFull :
    (16 ≤ (0x10#64).toNat ∧ 4 ≤ (0x4#64).toNat ∧ (0xE#64).toNat ≤ 0xE) ∧ (framed 0x01).fault = 0#8 := by decide

theorem witness_StepRunsDecodedTransaction :
    (taking 0x800#96).walk = none ∧ (taking 0x800#96).rstI = false ∧ (taking 0x800#96).inputs = .txn 0x800#96 :: [] ∧
    decodeTxn 0x800#96 = .ok (.regRd 0x08#20) := by decide

theorem witness_StepRunsPayloadGroup :
    (walking 0x01 Walk.start).walk = some Walk.start ∧
    ((walking 0x01 Walk.start).walkState Walk.start).group = some .iqCopy ∧
    ((walking 0x03 { Walk.start with per := 25, cur := 504 }).walkState { Walk.start with per := 25, cur := 504 }).group =
      none := by decide +kernel

/-- A word for each case of R82, at the boundary: the last offset taken and the first refused of a register and of
every buffer, with MAX_BLOCK_LEN = 16. -/
theorem witness_RefusedTransactions :
    (taking 0#96).walk = none ∧ (taking 0#96).rstI = false ∧ (taking 0#96).inputs = .txn 0#96 :: [] ∧
    ([0x20, 0x10000000, 0x4, 0x100, 0x8000, 0x2, 0x40806, 0x2F40A, 0xFC0E, 0x6012, 0x2016, 0x201A, 0x401E].map
      (fun w : BitVec 96 => (stop (step (taking w))).isSome)).all id = true ∧
    ([0x7800, 0x40706, 0x2F30A, 0xFB0E, 0x5F12, 0x1F16, 0x1F1A, 0x3F1E].map
      (fun w : BitVec 96 => (after (step (taking w)) (fun _ => ())).isSome)).all id = true := by decide +kernel

theorem witness_ResetSourcesAgree :
    ({ chip with inputs := [.powerOn] } : State).walk = none ∧
    ({ chip with inputs := [.powerOn] } : State).inputs = .powerOn :: [] ∧
    ({ chip with inputs := [.rst true] } : State).inputs = .rst true :: [] ∧
    ({ chip with rstI := true, inputs := [.rst false] } : State).rstI = true ∧
    ({ chip with rstI := true, inputs := [.rst false] } : State).inputs = .rst false :: [] ∧
    ({ taking 0#96 with rstI := true } : State).rstI = true := by decide

theorem witness_IdleStepChangesNothing : (framed 0x01).walk = none ∧ (framed 0x01).inputs = [] := by decide

theorem witness_PlacedWordRunsNext :
    decodeTxn 0x800#96 = .ok (.regRd 0x08#20) ∧ (framed 0x01).frameIn.wf = true ∧
    ([48, 16, 32].map fun n => after (step ((framed 0x01).withFetchWord n 0x7FFFFF800001)) (fun t => t.fault)) =
      [some 0#8, some 0#8, some 0#8] := by decide +kernel

/-! ## Control commands and faults -/

theorem witness_ResetClearsEverything :
    (0x1F#64).toNat % 16 = 0xF ∧ 16 ≤ (0x1F#64).toNat ∧ ({ chip with fault := 3 } : State).fault ≠ 0#8 := by decide

theorem witness_CommandsAfterReset :
    exec .reset (framed 0x01) = .next (applyReset (framed 0x01)) ∧ isCommandWord 0x4#64 = false := ⟨rfl, by decide⟩

theorem witness_IllegalRaisesIllegalCmd :
    isCommandWord 0x4#64 = false ∧ isCommandWord 0x10#64 = false ∧ chip.fault = 0#8 ∧
    ({ chip with fault := 1 } : State).fault ≠ 0#8 := by decide

theorem witness_FaultedBlockIgnoresCommands :
    ({ framed 0x01 with fault := 1 } : State).fault ≠ 0#8 ∧ (0x1F#64 : BitVec 64) ≠ 0xF#64 ∧
    regOffsetOk 0x78#20 = true ∧ (755#20).toNat < (framed 0x01).sizeOf .iqOut := by decide

/-- A DECODE ignored while faulted, and a RESET taken. -/
theorem witness_FaultIsStickyUntilReset :
    ({ taking 0x100000001#96 with fault := 2 } : State).walk = none ∧
    ({ taking 0x100000001#96 with fault := 2 } : State).fault ≠ 0#8 ∧
    after (step { taking 0x100000001#96 with fault := 2 }) (fun t => t.fault) = some 2#8 ∧
    after (step { taking 0xF00000001#96 with fault := 2 }) (fun t => t.fault) = some 0#8 := by decide +kernel

theorem witness_FaultsArePrecise :
    (taking 0x200000001#96).walk = none ∧ (taking 0x200000001#96).fault = 0#8 ∧
    after (step (taking 0x200000001#96)) (fun t => t.fault) = some 0x08#8 := by decide +kernel

/-! ## DECODE -/

/-- The frame and the configuration that `GeometryNeverRaised` and the statements on DECODE ask for. -/
theorem witness_decodeLegal : decodeLegal (framed 0x01) ∧ syncInPlace (framed 0x01).frameIn := by
  unfold decodeLegal Claims.syncInPlace; decide +kernel

/-- A state for each of the six clauses, each with the earlier checks passed. -/
theorem witness_DecodeFaultsInOrder :
    chip.fault = 0#8 ∧ cfgN chip = 0 ∧
    (1 ≤ cfgN (framed 0x0F) ∧ cfgN (framed 0x0F) ≤ cfgSel (framed 0x0F)) ∧
    (1 ≤ cfgN (framed 0x4B) ∧ cfgSel (framed 0x4B) < cfgN (framed 0x4B) ∧ 3 < cfgRate (framed 0x4B)) ∧
    (cfgRate { framed 0x31 with config := { chip.config with micDecim384 := .refuse } } = 3) ∧
    (cfgRate (framed 0x31) = 3 ∧ ({ framed 0x31 with frameLen := 1031 } : State).frameLen ≠ 1032#11) ∧
    (chip.config.strictSync = true ∧ ({ framed 0x01 with frameIn := [] } : State).frameIn.read 0 ≠ 0xEF#8) := by
  decide +kernel

theorem witness_DecodeFaultsInOrder_sync :
    decodeLegal { framed 0x01 with frameIn := [] } ∧ ¬syncInPlace ({ framed 0x01 with frameIn := [] } : State).frameIn := by
  unfold decodeLegal Claims.syncInPlace; decide +kernel

/-- Also at the last receiver of three and the highest rate, for the statements on the whole of DECODE. -/
theorem witness_DecodeClosedForm :
    (framed 0x3B).fault = 0#8 ∧ decodeLegal (framed 0x3B) ∧
    ((framed 0x3B).config.strictSync = true → syncInPlace (framed 0x3B).frameIn) ∧
    (framed 0x3B).iqOut.wf = true ∧ (framed 0x3B).micOut.wf = true := by
  unfold decodeLegal Claims.syncInPlace; decide +kernel

theorem witness_DecodeCounts :
    decodeLegal (framed 0x01) ∧ cfgN (framed 0x01) = 1 ∧ decodeLegal (framed 0x26) ∧ cfgN (framed 0x26) = 2 ∧
    decodeLegal (framed 0x3B) ∧ cfgN (framed 0x3B) = 3 ∧ syncInPlace frameP1 := by
  unfold decodeLegal Claims.syncInPlace; decide +kernel

/-- A frame that differs in the endpoint, the sequence, the CC and the padding bytes. -/
theorem witness_DecodeIgnoresOtherFrameBytes :
    let f := (((frameP1.write 3 0x04).write 7 0x99).write 11 0x55).write 519 0xAA
    f ≠ frameP1 ∧
    ((List.range 2).all fun sf => (List.range 500).all fun c =>
      f.read (16 + 512 * sf + c) == (framed 0x03).frameIn.read (16 + 512 * sf + c)) = true ∧
    wholePeriods (cfgN (framed 0x03)) * period (cfgN (framed 0x03)) = 500 ∧
    ([0, 1, 2, 8, 9, 10, 520, 521, 522].all fun a => f.read a == (framed 0x03).frameIn.read a) = true := by
  decide +kernel

theorem witness_DecodeTwiceIsDecodeOnce : (framed 0x01).iqOut.wf = true ∧ (framed 0x01).micOut.wf = true := by decide

theorem witness_AtomicDecodeIsStepwiseWalk :
    (framed 0x26).fault = 0#8 ∧ decodeLegal (framed 0x26) ∧
    ((framed 0x26).config.strictSync = true → syncInPlace (framed 0x26).frameIn) := by
  unfold decodeLegal Claims.syncInPlace; decide +kernel

theorem witness_WalkRegistersStayInRange :
    decodeLegal (framed 0x01) ∧
    (runWalk 1 { framed 0x01 with walk := some Walk.start }).walk =
      some { Walk.start with iqWp := 6, cur := 6, slot := 1 } := by
  unfold decodeLegal; decide +kernel

/-! ## Payload groups -/

/-- The last IQ group of a frame with one receiver, at the end of FRAME_IN and of IQ_OUT. -/
def lastIq : Walk := { sf := 1, cur := 496, slot := 0, mphase := 0, per := 62, iqWp := 750, micWp := 250 }

theorem witness_IqCopyStoresGroup :
    (walking 0x01 lastIq).walk = some lastIq ∧ lastIq.per ≠ wholePeriods (cfgN (walking 0x01 lastIq)) ∧
    lastIq.slot < cfgN (walking 0x01 lastIq) ∧ lastIq.slot = cfgSel (walking 0x01 lastIq) ∧
    16 + 512 * lastIq.sf + lastIq.cur + 6 ≤ (walking 0x01 lastIq).frameLen.toNat ∧
    16 + 512 * lastIq.sf + lastIq.cur + 6 ≤ 1032 ∧ lastIq.iqWp + 6 ≤ 756 ∧
    (walking 0x01 lastIq).iqOut.wf = true := by decide +kernel

/-- The last microphone group of that frame, the last 2 bytes of FRAME_IN and of MIC_OUT. -/
def lastMic : Walk := { sf := 1, cur := 502, slot := 1, mphase := 0, per := 62, iqWp := 756, micWp := 250 }

theorem witness_MicCopyStoresGroup :
    (walking 0x01 lastMic).walk = some lastMic ∧ lastMic.per ≠ wholePeriods (cfgN (walking 0x01 lastMic)) ∧
    cfgN (walking 0x01 lastMic) ≤ lastMic.slot ∧ lastMic.mphase = 0 ∧
    16 + 512 * lastMic.sf + lastMic.cur + 2 ≤ (walking 0x01 lastMic).frameLen.toNat ∧
    16 + 512 * lastMic.sf + lastMic.cur + 2 ≤ 1032 ∧ lastMic.micWp + 2 ≤ 252 ∧
    (walking 0x01 lastMic).micOut.wf = true := by decide +kernel

theorem witness_WalkCopiesFromFrame :
    (walking 0x01 lastIq).walk = some lastIq ∧ (walking 0x01 lastMic).walk = some lastMic ∧
    (walking 0x01 lastIq).iqOut.wf = true ∧ (walking 0x01 lastMic).micOut.wf = true := by decide +kernel

theorem witness_IqSkipAdvances :
    (walking 0x06 Walk.start).walk = some Walk.start ∧ Walk.start.per ≠ wholePeriods (cfgN (walking 0x06 Walk.start)) ∧
    Walk.start.slot < cfgN (walking 0x06 Walk.start) ∧ Walk.start.slot ≠ cfgSel (walking 0x06 Walk.start) := by
  decide +kernel

theorem witness_MicSkipAdvances :
    let w := { Walk.start with cur := 62, slot := 1, mphase := 7, per := 7 }
    (walking 0x31 w).walk = some w ∧ w.per ≠ wholePeriods (cfgN (walking 0x31 w)) ∧ cfgN (walking 0x31 w) ≤ w.slot ∧
    w.mphase ≠ 0 := by decide +kernel

theorem witness_PadSkipsToEnd :
    let w := { Walk.start with cur := 500, per := 25 }
    (walking 0x03 w).walk = some w ∧ w.per = wholePeriods (cfgN (walking 0x03 w)) ∧ w.cur < 504 := by decide +kernel

theorem witness_PeriodStateTable :
    (1 ≤ 3 ∧ 3 ≤ 3 ∧ 2 < 3 ∧ Walk.start.per ≠ wholePeriods 3) ∧ (1 ≤ 1 ∧ 0 < 1 ∧ Walk.start.per ≠ wholePeriods 1) := by
  decide

/-- No walk; another kind selected; one byte too far for FRAME_LEN, for FRAME_IN, for IQ_OUT and for MIC_OUT. -/
theorem witness_GroupsStopOutsideTheirPosition :
    chip.walk = none ∧
    ((walking 0x01 Walk.start).walkState Walk.start).group ≠ some (Instr.pad 0#32).groupKind ∧
    ((walking 0x01 lastIq).walkState lastIq).group = some .iqCopy ∧
    ({ walking 0x01 lastIq with frameLen := 1029 } : State).frameLen.toNat < 16 + 512 * lastIq.sf + lastIq.cur + 6 ∧
    1032 < 16 + 512 * lastIq.sf + ({ lastIq with cur := 499 } : Walk).cur + 6 ∧
    756 < ({ lastIq with iqWp := 751 } : Walk).iqWp + 6 ∧
    ((walking 0x01 lastMic).walkState lastMic).group = some .micCopy ∧
    ({ walking 0x01 lastMic with frameLen := 1031 } : State).frameLen.toNat < 16 + 512 * lastMic.sf + lastMic.cur + 2 ∧
    1032 < 16 + 512 * lastMic.sf + ({ lastMic with cur := 503 } : Walk).cur + 2 ∧
    252 < ({ lastMic with micWp := 251 } : Walk).micWp + 2 := by decide +kernel

/-! ## The converter -/

/-- B = 1 and B = MAX_BLOCK_LEN, with both scales written. -/
theorem witness_CvtConvertsBlock :
    scaled.fault = 0#8 ∧ blockInRange scaled ∧ blockInRange { scaled with blockLen := 16 } ∧ scaled.sinValid = true ∧
    scaled.soutValid = true ∧ scaled.dspIn.wf = true ∧ scaled.audioOut.wf = true := by
  unfold blockInRange; decide +kernel

/-- B = 0, B = MAX_BLOCK_LEN + 1, and a legal B with no scale written. -/
theorem witness_ConversionFaultsInOrder :
    chip.fault = 0#8 ∧ ¬blockInRange chip ∧ ¬blockInRange { chip with blockLen := 17 } ∧
    blockInRange { chip with blockLen := 16 } ∧ chip.sinValid = false ∧ chip.soutValid = false := by
  unfold blockInRange; decide +kernel

/-- A NaN; an infinity and a zero; an infinity and a non-zero number; two finite patterns whose product is finite (1.0
by 2^-23, and the largest number by 1.0) and two whose product is exactly 2^1024 - 2^970. -/
theorem witness_ProductRoundsToNearestEven :
    f64 0x7FF8000000000000#64 = .nan ∧ f64 0xFFF0000000000000#64 = .inf true ∧
    f64 0x8000000000000000#64 = .finite true 0 (-1074) ∧ f64 0x0000000000000001#64 = .finite false 1 (-1074) ∧
    f64 0x3FF0000000000000#64 = .finite false (2 ^ 52) (-52) ∧ f64 0x3E80000000000000#64 = .finite false (2 ^ 52) (-75) ∧
    mulRNE 0x7FEFFFFFFFFFFFFF#64 0x3FF0000000000000#64 = some 0x7FEFFFFFFFFFFFFF#64 ∧
    f64 0x5FEFFFFFFC000000#64 = .finite false ((2 ^ 27 - 1) * 2 ^ 26) 459 ∧
    f64 0x5FF0000002000000#64 = .finite false ((2 ^ 27 + 1) * 2 ^ 25) 460 ∧
    (2 ^ 27 - 1) * 2 ^ 485 * ((2 ^ 27 + 1) * 2 ^ 485) = 2 ^ 1024 - 2 ^ 970 ∧
    mulRNE 0x5FEFFFFFFC000000#64 0x5FF0000002000000#64 = some 0x7FF0000000000000#64 := by decide +kernel

/-- fp64 at the ends of the 24-bit samples and of R13's exact range. -/
theorem witness_CvtInExactAtPowerOfTwo :
    chip.config.cvtInRule = .standard ∧ (-9007199254740992 : Int).natAbs ≤ 2 ^ 53 ∧
    fp64 (-9007199254740992) = 0xC340000000000000#64 ∧ fp64 8388607 = 0x415FFFFFC0000000#64 ∧
    (-8388608 ≤ (-8388608 : Int) ∧ (-8388608 : Int) ≤ 8388607) ∧ f64 0xBFF0000000000000#64 = .finite true (2 ^ 52) (-52) := by
  decide +kernel

theorem witness_NaNResults :
    f64 0x7FF4000000000001#64 = .nan ∧ f64 0x7FF0000000000000#64 = .inf false ∧
    isQuietNaN64 0xFFF8000000000001#64 = true := by decide +kernel

/-- A NaN product, both infinities, and finite products at the bounds, inside on both sides, and zero. -/
theorem witness_CvtOutSaturatesAndTruncates :
    chip.config.cvtOutRule = .standard ∧
    mulRNE 0x7FF8000000000000#64 0x3FF0000000000000#64 = none ∧
    (mulRNE 0x7FF0000000000000#64 0x3FF0000000000000#64).map f64 = some (.inf false) ∧
    (mulRNE 0xFFF0000000000000#64 0x3FF0000000000000#64).map f64 = some (.inf true) ∧
    (mulRNE 0x40DFFFC000000000#64 0x3FF0000000000000#64).map f64 = some (.finite false 9006924376834048 (-38)) ∧
    (mulRNE 0xC0E0000000000000#64 0x3FF0000000000000#64).map f64 = some (.finite true (2 ^ 52) (-37)) ∧
    (mulRNE 0xBFE0000000000000#64 0x3FF0000000000000#64).map f64 = some (.finite true (2 ^ 52) (-53)) ∧
    (mulRNE 0#64 0x3FF0000000000000#64).map f64 = some (.finite false 0 (-1074)) := by decide +kernel

/-! ## Host transactions and the whole machine -/

theorem witness_RegisterPort :
    (0x78#20).toNat % 8 = 0 ∧ 0x50 ≤ (0x50#20).toNat ∧ (0x78#20).toNat ≤ 0x78 ∧ (0x04#20).toNat % 8 ≠ 0 ∧
    0x78 < (0x80#20).toNat := by decide

theorem witness_ParamsHoldsConfiguration :
    chip.config.legal = true ∧ after (exec .nop chip) (fun t => t.config) = some chip.config ∧ after (step (taking 0x800#96)) (fun t => t.config) = some chip.config := by
  decide +kernel

theorem witness_BufferPort :
    buffersCanonical (framed 0x01) = true ∧ (1031#20).toNat < (framed 0x01).sizeOf .frameIn ∧
    (framed 0x01).sizeOf .frameIn ≤ (1032#20).toNat ∧ (31#20).toNat < (framed 0x01).sizeOf .dspIn := by decide +kernel

theorem witness_ReadsAreIdempotent :
    after (exec (.regRd 0x08) (framed 0x01)) (fun t => t.response) = some (some 0#64) ∧
    after (exec (.bufRd .frameIn 0) (framed 0x01)) (fun t => t.response) = some (some 0xEF#64) := by decide +kernel

theorem witness_RegisterReadBack :
    after (exec (.regWr 0x10 0xFFFF) chip) (fun t => t.decCfg) = some 0x7F#7 ∧
    after (exec (.regWr 0x30 0xFFFF) chip) (fun t => t.scaleOut) = some 0xFFFF#64 := by decide +kernel

/-- A state that holds a frame, with a DECODE to take. -/
theorem witness_StepKeepsInvariant :
    inv (taking 0x100000001#96) = true ∧
    after (step (taking 0x100000001#96)) (fun t => t.iqCount.toNat) = some 126 := by decide +kernel

theorem witness_ScaleFlagsHaveOneWriter :
    after (exec (.regWr 0x28 1) chip) (fun t => t.sinValid != chip.sinValid) = some true ∧
    after (exec (.regWr 0x30 1) chip) (fun t => t.soutValid != chip.soutValid) = some true ∧
    after (exec .reset scaled) (fun t => t.sinValid != scaled.sinValid && t.soutValid != scaled.soutValid) = some true := by
  decide +kernel

theorem witness_not_isReset : ¬isReset .decode ∧ ¬isReset (.bufWr .frameIn 0#20 1#64) ∧ ¬isReset (.regWr 0x00#20 0x1#64) := by
  unfold isReset; decide

/-- An instruction that changes each of the buffers and the counts. -/
theorem witness_WritersOfEachBuffer :
    ([Space.frameIn, .iqOut, .micOut, .cvtIn, .dspIn, .dspOut, .audioOut].map fun sp =>
      after (exec (.bufWr sp 0 1) chip) (fun t => t != chip)) = List.replicate 7 (some true) ∧
    after (exec .decode (framed 0x01)) (fun t => t.iqCount != 0 && t.iqOut != [] && t.micOut != []) = some true := by
  decide +kernel

/-- Two states that differ in the other unit's registers and buffers. -/
theorem witness_UnitsShareNoDatapath :
    let s' := { scaled with decCfg := 0x7F, frameIn := frameP1, iqCount := 126 }
    scaled ≠ s' ∧ scaled.config = s'.config ∧ scaled.fault = s'.fault ∧ scaled.blockLen = s'.blockLen ∧
    scaled.scaleIn = s'.scaleIn ∧ scaled.sinValid = s'.sinValid ∧ scaled.cvtIn = s'.cvtIn ∧ scaled.dspIn = s'.dspIn ∧
    scaled.nanDraws = s'.nanDraws ∧ scaled.scaleOut = s'.scaleOut ∧ scaled.soutValid = s'.soutValid ∧
    scaled.dspOut = s'.dspOut ∧ scaled.audioOut = s'.audioOut := by decide +kernel

theorem witness_UnitsShareNoDatapath_decode :
    let s := framed 0x01
    let s' := { s with scaleIn := 7, cvtIn := [(0, 1)], dspIn := [(3, 5)] }
    s ≠ s' ∧ s.config = s'.config ∧ s.fault = s'.fault ∧ s.decCfg = s'.decCfg ∧ s.frameLen = s'.frameLen ∧
    s.frameIn = s'.frameIn ∧ s.iqOut = s'.iqOut ∧ s.micOut = s'.micOut ∧ s.iqCount = s'.iqCount ∧
    s.micCount = s'.micCount := by decide +kernel

theorem witness_WellFormedTransactionsAreTaken :
    let s := taking 0x800#96
    s.walk = none ∧ s.rstI = false ∧ s.inputs = .txn 0x800#96 :: [] ∧ decodeTxn 0x800#96 = .ok (.regRd 0x08#20) ∧
    (Instr.regRd 0x08#20).wellFormed s.config.maxBlockLen = true := by decide +kernel

/-- A frame and both scales in place; and the three not in place. -/
theorem witness_ReadyCommandsDoNotFault :
    (framed 0x01).fault = 0#8 ∧ readyFrame (framed 0x01) = true ∧ readyToCvtIn scaled = true ∧
    readyToCvtOut scaled = true ∧ readyFrame chip = false ∧ readyToCvtIn chip = false ∧ readyToCvtOut chip = false := by
  decide +kernel

/-- A read of STATUS and a DECODE of a frame, both to take. -/
theorem witness_WellFormedRunsReachTheirEnd :
    let s := { framed 0x01 with inputs := [.txn 0x800#96, .txn 0x100000001#96] }
    inv s = true ∧ s.rstI = false ∧ decodeTxn 0x800#96 = .ok (.regRd 0x08#20) ∧
    decodeTxn 0x100000001#96 = .ok (.regWr 0x00#20 1#64) ∧ (Instr.regRd 0x08#20).wellFormed 16 = true ∧
    (Instr.regWr 0x00#20 1#64).wellFormed 16 = true ∧ endsWell s = true := by decide +kernel

end Sys2Proof.Tests
end

section
/-! # Binary64 products (00_scope.md R13, 41_convert.md R132)

The default conversions multiply with `mulRNE`. Its rounding is read off in two steps: `significand` is the exact
product, measured in units of its last place, rounded to the nearest integer; and a pattern made of a last place and a
significand stands for their product. Every finite pattern is then compared with the exact product by its own exponent:
at least that of the last place, its value is a whole number of last places; below it, its value is too small. -/

namespace Sys2Proof.Machine

open Sys2Proof.Claims

/-! ## Patterns and what they stand for -/

theorem signed64_toNat (neg : Bool) {mag : Nat} (h : mag < 2 ^ 63) :
    (signed64 neg mag).toNat = neg.toNat * 2 ^ 63 + mag := by
  rw [signed64, BitVec.toNat_append, BitVec.toNat_ofNat, Nat.mod_eq_of_lt h, BitVec.toNat_ofBool,
    Nat.shiftLeft_eq, Nat.mul_comm, Nat.two_pow_add_eq_or_of_lt h]

theorem infMag_lt : infMag < 2 ^ 63 := by decide

@[simp] theorem signed64_msb (neg : Bool) (mag : Nat) : (signed64 neg mag).msb = neg := by
  rw [signed64, BitVec.msb_append, if_neg (by decide), BitVec.msb_ofBool]

/-- The last bit of a pattern is the last bit of its magnitude. -/
theorem signed64_getLsbD_zero (neg : Bool) (mag : Nat) : (signed64 neg mag).getLsbD 0 = decide (mag % 2 = 1) := by
  rw [signed64, BitVec.getLsbD_append, if_pos (by decide), BitVec.getLsbD_ofNat, Nat.testBit_zero]
  simp

/-- The fields of a pattern below infinity, by whether its exponent field is 0. -/
theorem f64_signed64 (neg : Bool) {mag : Nat} (h : mag < infMag) :
    f64 (signed64 neg mag) =
      if mag / 2 ^ 52 = 0 then .finite neg mag (-1074)
      else .finite neg (2 ^ 52 + mag % 2 ^ 52) ((mag / 2 ^ 52 : Nat) - 1075) := by
  have hlt : mag < 2 ^ 63 := h.trans infMag_lt
  have hneg := neg.toNat_le
  unfold infMag at h
  have hex : ((signed64 neg mag).extractLsb' 52 11).toNat = mag / 2 ^ 52 := by
    rw [BitVec.extractLsb'_toNat, signed64_toNat neg hlt, Nat.shiftRight_eq_div_pow]
    omega
  have hfr : ((signed64 neg mag).extractLsb' 0 52).toNat = mag % 2 ^ 52 := by
    rw [BitVec.extractLsb'_toNat, signed64_toNat neg hlt, Nat.shiftRight_zero]
    omega
  have hne : mag / 2 ^ 52 ≠ 2047 := by omega
  unfold f64
  simp only [hex, hfr, if_neg hne, signed64_msb]
  split
  · next h0 => rw [Nat.mod_eq_of_lt (by omega)]
  · rfl

/-- A finite pattern has at most 53 significant bits and no exponent below the subnormal one. -/
theorem f64_finite_bounds {b : BitVec 64} {neg : Bool} {m : Nat} {e : Int} (h : f64 b = .finite neg m e) :
    m < 2 ^ 53 ∧ -1074 ≤ e := by
  have hfr : (b.extractLsb' 0 52).toNat < 2 ^ 52 := (b.extractLsb' 0 52).isLt
  unfold f64 at h
  dsimp only at h
  split at h
  · split at h <;> cases h
  · split at h
    all_goals injection h; omega

/-- The factor of a sign. -/
def signFactor (neg : Bool) : ℚ := if neg then -1 else 1

@[simp] theorem abs_signFactor (neg : Bool) : |signFactor neg| = 1 := by cases neg <;> simp [signFactor]

theorem signFactor_ne_zero (neg : Bool) : signFactor neg ≠ 0 := by cases neg <;> simp [signFactor]

theorem signFactor_bne (na nb : Bool) : signFactor (na != nb) = signFactor na * signFactor nb := by
  cases na <;> cases nb <;> simp [signFactor]

@[simp] theorem signFactor_mul_signFactor_mul (neg : Bool) (x : ℚ) :
    signFactor neg * (signFactor neg * x) = x := by
  cases neg <;> simp [signFactor]

theorem valueOf_finite {b : BitVec 64} {neg : Bool} {m : Nat} {e : Int} (h : f64 b = .finite neg m e) :
    valueOf b = signFactor neg * ((m : ℚ) * 2 ^ e) := by
  rw [valueOf, h, value, signFactor, mul_assoc]

theorem valueOf_eq_zero_iff {b : BitVec 64} {neg : Bool} {m : Nat} {e : Int} (h : f64 b = .finite neg m e) :
    valueOf b = 0 ↔ m = 0 := by
  have hpow : (2 : ℚ) ^ e ≠ 0 := zpow_ne_zero e two_ne_zero
  simp [valueOf_finite h, signFactor_ne_zero, hpow]

/-- A last place 2^(t - 1074) and a significand, added as R13's fields are, stand for their product: also where the
significand has carried into the exponent field. -/
theorem f64_signed64_fields (neg : Bool) {t r : Nat} (hlow : t = 0 ∨ 2 ^ 52 ≤ r) (hhigh : r ≤ 2 ^ 53)
    (hmag : t * 2 ^ 52 + r < infMag) :
    ∃ m e, f64 (signed64 neg (t * 2 ^ 52 + r)) = .finite neg m e ∧
      (m : ℚ) * 2 ^ e = (r : ℚ) * 2 ^ ((t : Int) - 1074) := by
  rw [f64_signed64 neg hmag]
  split
  · next hsub =>
    have ht : t = 0 := by omega
    subst ht
    exact ⟨_, _, rfl, by simp⟩
  · next hnorm =>
    refine ⟨_, _, rfl, ?_⟩
    rcases hhigh.lt_or_eq with hlt | rfl
    · have hm : 2 ^ 52 + (t * 2 ^ 52 + r) % 2 ^ 52 = r := by omega
      have he : (((t * 2 ^ 52 + r) / 2 ^ 52 : Nat) : Int) - 1075 = t - 1074 := by omega
      rw [hm, he]
    · have hm : 2 ^ 52 + (t * 2 ^ 52 + 2 ^ 53) % 2 ^ 52 = 2 ^ 52 := by omega
      have he : (((t * 2 ^ 52 + 2 ^ 53) / 2 ^ 52 : Nat) : Int) - 1075 = t - 1074 + 1 := by omega
      rw [hm, he, zpow_add_one₀ two_ne_zero]
      push_cast
      ring

/-! ## Rounding to the nearest integer -/

/-- `r` is the integer nearest to `y`, the even one of two equally near. -/
def RoundsTo (r : Nat) (y : ℚ) : Prop := |(r : ℚ) - y| ≤ 1 / 2 ∧ (|(r : ℚ) - y| = 1 / 2 → r % 2 = 0)

theorem roundsTo_self (r : Nat) : RoundsTo r r := by simp [RoundsTo]

/-- No integer is nearer, and at a tie the chosen one is even. -/
theorem RoundsTo.nearest {r : Nat} {y : ℚ} (h : RoundsTo r y) (n : Int) :
    |(r : ℚ) - y| ≤ |(n : ℚ) - y| ∧ (|(r : ℚ) - y| = |(n : ℚ) - y| → (n : ℚ) ≠ r → r % 2 = 0) := by
  obtain ⟨hhalf, heven⟩ := h
  by_cases hn : n = r
  · subst hn
    simp
  · have hgap : (1 : ℚ) ≤ |(n : ℚ) - r| := by
      exact_mod_cast Int.one_le_abs (sub_ne_zero.mpr hn)
    have htri : |(n : ℚ) - r| ≤ |(n : ℚ) - y| + |(r : ℚ) - y| := by
      simpa [abs_sub_comm y] using abs_sub_le (n : ℚ) y r
    exact ⟨by linarith, fun htie _ => heven (by linarith)⟩

theorem RoundsTo.le {r n : Nat} {y : ℚ} (h : RoundsTo r y) (hy : y < n) : r ≤ n := by
  have hr : (r : ℚ) - y ≤ 1 / 2 := (abs_le.mp h.1).2
  have hlt : (r : ℚ) < (n + 1 : Nat) := by push_cast; linarith
  exact Nat.lt_succ_iff.mp (by exact_mod_cast hlt)

theorem RoundsTo.ge {r n : Nat} {y : ℚ} (h : RoundsTo r y) (hy : (n : ℚ) ≤ y) : n ≤ r := by
  have hr : -(1 / 2) ≤ (r : ℚ) - y := (abs_le.mp h.1).1
  have hlt : (n : ℚ) < (r + 1 : Nat) := by push_cast; linarith
  exact Nat.lt_succ_iff.mp (by exact_mod_cast hlt)

/-- An even integer is reached from the midpoint below it on. -/
theorem RoundsTo.even_le_iff {r n : Nat} {y : ℚ} (h : RoundsTo r y) (hn : n % 2 = 0) :
    n ≤ r ↔ (n : ℚ) - 1 / 2 ≤ y := by
  obtain ⟨hlow, hhigh⟩ := abs_le.mp h.1
  constructor
  · intro hle
    have : (n : ℚ) ≤ r := by exact_mod_cast hle
    linarith
  · intro hy
    by_contra hlt
    have hr : (r : ℚ) + 1 ≤ n := by exact_mod_cast not_le.mp hlt
    have htie : (r : ℚ) - y = -(1 / 2) := by linarith
    have hpred : r + 1 = n := by
      have : (r : ℚ) + 1 = n := by linarith
      exact_mod_cast this
    have := h.2 (by rw [htie]; norm_num)
    omega

theorem roundsTo_floor {d : Nat} {f : ℚ} (hf : 0 ≤ f) (hhalf : f ≤ 1 / 2) (heven : f = 1 / 2 → d % 2 = 0) :
    RoundsTo d (d + f) := by
  rw [RoundsTo, sub_add_cancel_left, abs_neg, abs_of_nonneg hf]
  exact ⟨hhalf, heven⟩

theorem roundsTo_succ {d : Nat} {f : ℚ} (hf : f ≤ 1) (hhalf : 1 / 2 ≤ f) (heven : f = 1 / 2 → (d + 1) % 2 = 0) :
    RoundsTo (d + 1) (d + f) := by
  have hdist : ((d + 1 : Nat) : ℚ) - (d + f) = 1 - f := by
    push_cast
    ring
  rw [RoundsTo, hdist, abs_of_nonneg (sub_nonneg.mpr hf)]
  exact ⟨by linarith, fun h => heven (by linarith)⟩

/-- m / 2^k as its quotient and its remainder's fraction. -/
theorem mul_zpow_neg_eq_div_add_mod (m k : Nat) :
    (m : ℚ) * 2 ^ (-(k : Int)) = (m / 2 ^ k : Nat) + ((m % 2 ^ k : Nat) : ℚ) / 2 ^ k := by
  have hpos : (2 : ℚ) ^ k ≠ 0 := pow_ne_zero k two_ne_zero
  have hdiv : (m : ℚ) = 2 ^ k * (m / 2 ^ k : Nat) + (m % 2 ^ k : Nat) := by
    exact_mod_cast (Nat.div_add_mod m (2 ^ k)).symm
  rw [zpow_neg, zpow_natCast, ← div_eq_mul_inv, div_eq_iff hpos, add_mul, div_mul_cancel₀ _ hpos]
  linarith

/-- The model's comparison of twice the remainder with 2^k is that of the fraction with one half. -/
theorem half_lt_div_two_pow_iff (r k : Nat) : 1 / 2 < (r : ℚ) / 2 ^ k ↔ 2 ^ k < 2 * r := by
  rw [div_lt_div_iff₀ two_pos (by positivity), one_mul, mul_comm]
  exact_mod_cast Iff.rfl

theorem div_two_pow_eq_half_iff (r k : Nat) : (r : ℚ) / 2 ^ k = 1 / 2 ↔ 2 * r = 2 ^ k := by
  rw [div_eq_div_iff (by positivity) two_ne_zero, one_mul, mul_comm]
  exact_mod_cast Iff.rfl

theorem rneShift_roundsTo (m k : Nat) : RoundsTo (rneShift m k) ((m : ℚ) * 2 ^ (-(k : Int))) := by
  have habove := half_lt_div_two_pow_iff (m % 2 ^ k) k
  have htie := div_two_pow_eq_half_iff (m % 2 ^ k) k
  have hone : ((m % 2 ^ k : Nat) : ℚ) / 2 ^ k < 1 :=
    (div_lt_one (by positivity)).mpr (by exact_mod_cast Nat.mod_lt m (Nat.two_pow_pos k))
  rw [mul_zpow_neg_eq_div_add_mod]
  unfold rneShift
  dsimp only
  split
  · next hup =>
    refine roundsTo_succ hone.le ?_ fun h => ?_
    · rcases hup with hgt | ⟨heq, _⟩
      · exact (habove.mpr hgt).le
      · exact (htie.mpr heq).ge
    · have := htie.mp h
      omega
  · next hdown =>
    refine roundsTo_floor (by positivity) (not_lt.mp fun h => hdown (.inl (habove.mp h))) fun h => ?_
    have := htie.mp h
    omega

/-! ## The last place and the significand of `roundF64` -/

/-- The exponent of the last place kept: 53 significant bits, or the subnormal end. -/
def lastPlace (m : Nat) (e : Int) : Int := max (e + (Nat.log2 m : Int) - 52) (-1074)

/-- m * 2^e in units of its last place. -/
def scaled (m : Nat) (e : Int) : ℚ := (m : ℚ) * 2 ^ (e - lastPlace m e)

/-- The whole number of last places that m * 2^e is rounded to. -/
def significand (m : Nat) (e : Int) : Nat :=
  if lastPlace m e ≤ e then m * 2 ^ (e - lastPlace m e).toNat else rneShift m (lastPlace m e - e).toNat

/-- The exponent of the last place and the significand, added as R13's fields are, before the cut at infinity. -/
def roundMag (m : Nat) (e : Int) : Nat := (lastPlace m e + 1074).toNat * 2 ^ 52 + significand m e

theorem roundF64_zero (neg : Bool) (e : Int) : roundF64 neg 0 e = signed64 neg 0 := rfl

theorem roundF64_eq (neg : Bool) {m : Nat} (e : Int) (hm : m ≠ 0) :
    roundF64 neg m e = signed64 neg (min (roundMag m e) infMag) := by
  rw [roundF64, if_neg hm]
  rfl

theorem roundF64_msb (neg : Bool) (m : Nat) (e : Int) : (roundF64 neg m e).msb = neg := by
  by_cases hm : m = 0
  · rw [hm, roundF64_zero, signed64_msb]
  · rw [roundF64_eq neg e hm, signed64_msb]

theorem lastPlace_ge (m : Nat) (e : Int) : -1074 ≤ lastPlace m e := le_max_right _ _

theorem scaled_mul_lastPlace (m : Nat) (e : Int) : scaled m e * 2 ^ lastPlace m e = (m : ℚ) * 2 ^ e := by
  rw [scaled, mul_assoc, ← zpow_add₀ two_ne_zero, sub_add_cancel]

theorem significand_roundsTo (m : Nat) (e : Int) : RoundsTo (significand m e) (scaled m e) := by
  unfold significand scaled
  split
  · next hexact =>
    obtain ⟨k, hk⟩ := Int.eq_ofNat_of_zero_le (sub_nonneg.mpr hexact)
    rw [hk, Int.toNat_natCast, zpow_natCast]
    exact_mod_cast roundsTo_self (m * 2 ^ k)
  · next hcut =>
    have hk : e - lastPlace m e = -((lastPlace m e - e).toNat : Int) := by omega
    rw [hk]
    exact rneShift_roundsTo m _

/-- No more than 53 significant bits are kept. -/
theorem scaled_lt (m : Nat) (e : Int) : scaled m e < (2 ^ 53 : Nat) := by
  have hm : (m : ℚ) < 2 ^ ((Nat.log2 m : Int) + 1) := by exact_mod_cast Nat.lt_log2_self
  have hq : e - lastPlace m e ≤ 52 - Nat.log2 m := by unfold lastPlace; omega
  calc scaled m e ≤ (m : ℚ) * 2 ^ ((52 : Int) - Nat.log2 m) :=
        mul_le_mul_of_nonneg_left (zpow_le_zpow_right₀ one_le_two hq) m.cast_nonneg
    _ < 2 ^ ((Nat.log2 m : Int) + 1) * 2 ^ ((52 : Int) - Nat.log2 m) :=
        mul_lt_mul_of_pos_right hm (by positivity)
    _ = (2 ^ 53 : Nat) := by
        rw [← zpow_add₀ two_ne_zero, show ((Nat.log2 m : Int) + 1 + (52 - Nat.log2 m)) = (53 : Nat) by omega]
        norm_num

/-- All 53 bits are there above the subnormal end. -/
theorem le_scaled {m : Nat} {e : Int} (hm : m ≠ 0) (hq : lastPlace m e ≠ -1074) :
    ((2 ^ 52 : Nat) : ℚ) ≤ scaled m e := by
  have hlow : (2 : ℚ) ^ (Nat.log2 m : Int) ≤ m := by exact_mod_cast Nat.log2_self_le hm
  have hplace : e - lastPlace m e = 52 - Nat.log2 m := by unfold lastPlace at *; omega
  calc ((2 ^ 52 : Nat) : ℚ) = 2 ^ (Nat.log2 m : Int) * 2 ^ ((52 : Int) - Nat.log2 m) := by
        rw [← zpow_add₀ two_ne_zero, add_sub_cancel]
        norm_num
    _ ≤ m * 2 ^ ((52 : Int) - Nat.log2 m) := mul_le_mul_of_nonneg_right hlow (by positivity)
    _ = scaled m e := by rw [scaled, hplace]

/-- Below infinity, the rounded pattern stands for the significand times the last place. -/
theorem f64_signed64_roundMag (neg : Bool) {m : Nat} {e : Int} (hm : m ≠ 0) (hfin : roundMag m e < infMag) :
    ∃ m' e', f64 (signed64 neg (roundMag m e)) = .finite neg m' e' ∧
      (m' : ℚ) * 2 ^ e' = (significand m e : ℚ) * 2 ^ lastPlace m e := by
  have hround := significand_roundsTo m e
  have hlow : (lastPlace m e + 1074).toNat = 0 ∨ 2 ^ 52 ≤ significand m e := by
    by_cases hq : lastPlace m e = -1074
    · exact .inl (by rw [hq]; rfl)
    · exact .inr (hround.ge (le_scaled hm hq))
  have ht : lastPlace m e = ((lastPlace m e + 1074).toNat : Int) - 1074 := by
    have := lastPlace_ge m e
    omega
  obtain ⟨m', e', hf, hv⟩ := f64_signed64_fields neg hlow (hround.le (scaled_lt m e)) hfin
  exact ⟨m', e', hf, by rw [hv, ← ht]⟩

/-- The midpoint between the largest finite number and 2^1024, in units of the largest number's last place. -/
theorem overflow_midpoint : (2 : ℚ) ^ 1024 - 2 ^ 970 = ((2 ^ 53 : Nat) - 1 / 2) * 2 ^ (971 : Int) := by
  have hunits (n : Nat) : (2 : ℚ) ^ (n + 54) - 2 ^ n = ((2 ^ 53 : Nat) - 1 / 2) * 2 ^ (n + 1) := by
    push_cast
    ring
  exact hunits 970

/-- Overflow begins at that midpoint, which rounds up as a tie. -/
theorem infMag_le_roundMag_iff {m : Nat} {e : Int} (hm : m ≠ 0) :
    infMag ≤ roundMag m e ↔ (2 : ℚ) ^ 1024 - 2 ^ 970 ≤ (m : ℚ) * 2 ^ e := by
  have hround := significand_roundsTo m e
  have hhigh : significand m e ≤ 2 ^ 53 := hround.le (scaled_lt m e)
  have hunit : (0 : ℚ) < 2 ^ (971 : Int) := by positivity
  have hpos : (0 : ℚ) < 2 ^ lastPlace m e := by positivity
  rw [← scaled_mul_lastPlace, overflow_midpoint]
  unfold roundMag infMag
  rcases lt_trichotomy (lastPlace m e) 971 with hlt | heq | hgt
  · have hplace : (2 : ℚ) ^ (lastPlace m e + 1) ≤ 2 ^ (971 : Int) := zpow_le_zpow_right₀ one_le_two (by omega)
    rw [zpow_add_one₀ two_ne_zero] at hplace
    have hbelow : scaled m e * 2 ^ lastPlace m e < (2 ^ 53 : Nat) * 2 ^ lastPlace m e :=
      mul_lt_mul_of_pos_right (scaled_lt m e) hpos
    generalize (2 : ℚ) ^ (971 : Int) = u at *
    push_cast at hbelow ⊢
    exact iff_of_false (by omega) (by linarith)
  · rw [heq, mul_le_mul_iff_left₀ hunit, ← hround.even_le_iff (by decide)]
    omega
  · have hfull := le_scaled hm (e := e) (by omega)
    have hplace : (2 : ℚ) ^ ((971 : Int) + 1) ≤ 2 ^ lastPlace m e := zpow_le_zpow_right₀ one_le_two (by omega)
    rw [zpow_add_one₀ two_ne_zero] at hplace
    have habove : (2 ^ 52 : Nat) * 2 ^ lastPlace m e ≤ scaled m e * 2 ^ lastPlace m e :=
      mul_le_mul_of_nonneg_right hfull hpos.le
    have hsig : 2 ^ 52 ≤ significand m e := hround.ge hfull
    generalize (2 : ℚ) ^ (971 : Int) = u at *
    push_cast at habove ⊢
    exact iff_of_true (by omega) (by linarith)

/-! ## No finite pattern is nearer -/

/-- A finite number whose exponent is at least `q` is a whole number of 2^q. -/
theorem exists_int_mul_zpow (neg : Bool) (m : Nat) {e q : Int} (h : q ≤ e) :
    ∃ n : Int, signFactor neg * ((m : ℚ) * 2 ^ e) = n * 2 ^ q := by
  obtain ⟨k, hk⟩ := Int.eq_ofNat_of_zero_le (sub_nonneg.mpr h)
  have he : (2 : ℚ) ^ e = 2 ^ k * 2 ^ q := by
    rw [← zpow_natCast, ← zpow_add₀ two_ne_zero]
    congr 1
    omega
  refine ⟨(if neg then -1 else 1) * (m * 2 ^ k), ?_⟩
  rw [he, signFactor]
  push_cast
  ring

theorem abs_signFactor_mul_sub (neg : Bool) (x y : ℚ) : |signFactor neg * x - signFactor neg * y| = |x - y| := by
  rw [← mul_sub, abs_mul, abs_signFactor, one_mul]

/-- Every finite pattern is at least as far from m * 2^e as the significand is, and at a tie the significand is even. -/
theorem significand_nearest {m : Nat} (e : Int) (hm : m ≠ 0) (neg : Bool) {mc : Nat} {ec : Int} (hmc : mc < 2 ^ 53)
    (hec : -1074 ≤ ec) {near other : ℚ} (hnear : near = (significand m e : ℚ) * 2 ^ lastPlace m e)
    (hother : other = signFactor neg * ((mc : ℚ) * 2 ^ ec)) :
    |near - m * 2 ^ e| ≤ |other - m * 2 ^ e| ∧
      (|near - m * 2 ^ e| = |other - m * 2 ^ e| → other ≠ near → significand m e % 2 = 0) := by
  have hround := significand_roundsTo m e
  have hpos : (0 : ℚ) < 2 ^ lastPlace m e := by positivity
  have hdist (x : ℚ) : |x * 2 ^ lastPlace m e - m * 2 ^ e| = |x - scaled m e| * 2 ^ lastPlace m e := by
    rw [← scaled_mul_lastPlace, ← sub_mul, abs_mul, abs_of_pos hpos]
  rw [hnear, hdist]
  rcases le_or_gt (lastPlace m e) ec with hge | hlt
  · obtain ⟨n, hn⟩ := exists_int_mul_zpow neg mc hge
    obtain ⟨hle, heven⟩ := hround.nearest n
    rw [hother, hn, hdist]
    refine ⟨mul_le_mul_of_nonneg_right hle hpos.le, fun htie hne => ?_⟩
    exact heven (mul_right_cancel₀ hpos.ne' htie) fun h => hne (by rw [h])
  · have hfull := le_scaled hm (e := e) (by omega)
    have hsmall : |other| < (2 ^ 52 : Nat) * 2 ^ lastPlace m e := by
      have hplace : (2 : ℚ) ^ (ec + 1) ≤ 2 ^ lastPlace m e := zpow_le_zpow_right₀ one_le_two (by omega)
      have hbits : (mc : ℚ) * 2 ^ ec < (2 ^ 53 : Nat) * 2 ^ ec :=
        mul_lt_mul_of_pos_right (by exact_mod_cast hmc) (by positivity)
      rw [hother, abs_mul, abs_signFactor, one_mul, abs_of_nonneg (by positivity)]
      rw [zpow_add_one₀ two_ne_zero] at hplace
      push_cast at hbits ⊢
      linarith
    have hnearer : |(significand m e : ℚ) - scaled m e| * 2 ^ lastPlace m e < |other - m * 2 ^ e| := by
      have hle := (hround.nearest (2 ^ 52 : Nat)).1
      rw [Int.cast_natCast, abs_sub_comm ((2 ^ 52 : Nat) : ℚ), abs_of_nonneg (sub_nonneg.mpr hfull)] at hle
      have hle' := mul_le_mul_of_nonneg_right hle hpos.le
      rw [sub_mul, scaled_mul_lastPlace] at hle'
      have hfar := neg_abs_le (other - m * 2 ^ e)
      have hself := le_abs_self other
      linarith
    exact ⟨hnearer.le, fun htie _ => absurd htie hnearer.ne⟩

/-! ## `roundF64`, by the magnitude of what is rounded -/

theorem roundF64_overflow (neg : Bool) {m : Nat} {e : Int} (h : (2 : ℚ) ^ 1024 - 2 ^ 970 ≤ (m : ℚ) * 2 ^ e) :
    roundF64 neg m e = signed64 neg infMag := by
  have hm : m ≠ 0 := by
    rintro rfl
    have hpos : (0 : ℚ) < (2 ^ 53 : Nat) - 1 / 2 := by norm_num
    have : (0 : ℚ) < 2 ^ 1024 - 2 ^ 970 := overflow_midpoint ▸ mul_pos hpos (by positivity)
    rw [Nat.cast_zero, zero_mul] at h
    exact absurd h (not_le.mpr this)
  rw [roundF64_eq neg e hm, min_eq_right ((infMag_le_roundMag_iff hm).mpr h)]

/-- Below the overflow the result is finite, and stands for the significand times the last place. -/
theorem roundF64_finite (neg : Bool) {m : Nat} {e : Int} (hm : m ≠ 0)
    (h : (m : ℚ) * 2 ^ e < 2 ^ 1024 - 2 ^ 970) :
    isFinite (roundF64 neg m e) ∧
      valueOf (roundF64 neg m e) = signFactor neg * ((significand m e : ℚ) * 2 ^ lastPlace m e) ∧
      (roundF64 neg m e).getLsbD 0 = decide (significand m e % 2 = 1) := by
  have hmag : roundMag m e < infMag := not_le.mp fun hle => absurd ((infMag_le_roundMag_iff hm).mp hle) (not_le.mpr h)
  rw [roundF64_eq neg e hm, min_eq_left hmag.le]
  obtain ⟨m', e', hf, hv⟩ := f64_signed64_roundMag neg hm hmag
  refine ⟨⟨neg, m', e', hf⟩, by rw [valueOf_finite hf, hv], ?_⟩
  have hparity : roundMag m e % 2 = significand m e % 2 := by unfold roundMag; omega
  rw [signed64_getLsbD_zero, hparity]

/-- R13: no finite pattern is nearer to (-1)^neg * m * 2^e than its rounding, and at a tie that one's last bit is 0. -/
theorem roundF64_nearest (neg : Bool) {m : Nat} {e : Int} (h : (m : ℚ) * 2 ^ e < 2 ^ 1024 - 2 ^ 970)
    {c : BitVec 64} (hc : isFinite c) {x : ℚ} (hx : x = signFactor neg * ((m : ℚ) * 2 ^ e)) :
    |valueOf (roundF64 neg m e) - x| ≤ |valueOf c - x| ∧
      (|valueOf (roundF64 neg m e) - x| = |valueOf c - x| → valueOf c ≠ valueOf (roundF64 neg m e) →
        (roundF64 neg m e).getLsbD 0 = false) := by
  by_cases hm : m = 0
  · subst hm
    have hzero : valueOf (roundF64 neg 0 e) = 0 := by
      rw [roundF64_zero]
      exact (valueOf_eq_zero_iff (f64_signed64 neg (by decide))).mpr rfl
    have hx0 : x = 0 := by simp [hx]
    rw [hzero, hx0, sub_zero, abs_zero, sub_zero]
    exact ⟨abs_nonneg _, fun htie hne => absurd (abs_eq_zero.mp htie.symm) hne⟩
  · obtain ⟨nc, mc, ec, hcf⟩ := hc
    obtain ⟨hmc, hec⟩ := f64_finite_bounds hcf
    obtain ⟨_, hvalue, hlast⟩ := roundF64_finite neg hm h
    have hother : valueOf c = signFactor neg * (signFactor (neg != nc) * ((mc : ℚ) * 2 ^ ec)) := by
      rw [valueOf_finite hcf, signFactor_bne, mul_assoc (signFactor neg), signFactor_mul_signFactor_mul]
    obtain ⟨hle, heven⟩ := significand_nearest e hm (neg != nc) hmc hec rfl rfl
    rw [hvalue, hother, hx, abs_signFactor_mul_sub, abs_signFactor_mul_sub, hlast]
    refine ⟨hle, fun htie hne => ?_⟩
    have := heven htie fun heq => hne (by rw [heq])
    simp [this]

theorem roundF64_isFinite (neg : Bool) {m : Nat} {e : Int} (h : (m : ℚ) * 2 ^ e < 2 ^ 1024 - 2 ^ 970) :
    isFinite (roundF64 neg m e) := by
  by_cases hm : m = 0
  · rw [hm, roundF64_zero]
    exact ⟨neg, 0, -1074, f64_signed64 neg (by decide)⟩
  · exact (roundF64_finite neg hm h).1

/-! ## `mulRNE`, by what its operands stand for -/

section Product

variable {a b : BitVec 64}

theorem mulRNE_nan (h : f64 a = .nan ∨ f64 b = .nan) : mulRNE a b = none := by
  unfold mulRNE
  rcases h with ha | hb
  · rw [ha]
  · rw [hb]
    cases f64 a <;> rfl

theorem mulRNE_inf_zero {sa sb : Bool} {e : Int} (ha : f64 a = .inf sa) (hb : f64 b = .finite sb 0 e) :
    mulRNE a b = none ∧ mulRNE b a = none := by
  simp [mulRNE, ha, hb]

theorem mulRNE_inf_inf {sa sb : Bool} (ha : f64 a = .inf sa) (hb : f64 b = .inf sb) :
    mulRNE a b = some (signed64 (sa != sb) infMag) := by
  simp [mulRNE, ha, hb]

theorem mulRNE_inf_finite {sa sb : Bool} {m : Nat} {e : Int} (ha : f64 a = .inf sa) (hb : f64 b = .finite sb m e)
    (hm : m ≠ 0) :
    mulRNE a b = some (signed64 (sa != sb) infMag) ∧ mulRNE b a = some (signed64 (sb != sa) infMag) := by
  simp [mulRNE, ha, hb, hm]

theorem mulRNE_finite {sa sb : Bool} {ma mb : Nat} {ea eb : Int} (ha : f64 a = .finite sa ma ea)
    (hb : f64 b = .finite sb mb eb) : mulRNE a b = some (roundF64 (sa != sb) (ma * mb) (ea + eb)) := by
  simp [mulRNE, ha, hb]

/-- The exact product of two finite patterns. -/
theorem valueOf_mul_valueOf {sa sb : Bool} {ma mb : Nat} {ea eb : Int} (ha : f64 a = .finite sa ma ea)
    (hb : f64 b = .finite sb mb eb) :
    valueOf a * valueOf b = signFactor (sa != sb) * (((ma * mb : Nat) : ℚ) * 2 ^ (ea + eb)) := by
  rw [valueOf_finite ha, valueOf_finite hb, signFactor_bne, zpow_add₀ two_ne_zero]
  push_cast
  ring

/-- An infinity times an infinity or a number that is not zero, on either side, is an infinity. -/
theorem mulRNE_infinite (ha : isInfinite a) (hb : isInfinite b ∨ isFinite b ∧ valueOf b ≠ 0) :
    mulRNE a b = some (signed64 (a.msb != b.msb) infMag) ∧ mulRNE b a = some (signed64 (a.msb != b.msb) infMag) := by
  obtain ⟨sa, ha⟩ := ha
  rcases hb with ⟨sb, hb⟩ | ⟨⟨sb, m, e, hb⟩, hne⟩
  · rw [f64_inf_msb ha, f64_inf_msb hb, bne_comm (a := sa)]
    exact ⟨bne_comm (a := sb) ▸ mulRNE_inf_inf ha hb, mulRNE_inf_inf hb ha⟩
  · obtain ⟨hab, hba⟩ := mulRNE_inf_finite ha hb fun hm => hne ((valueOf_eq_zero_iff hb).mpr hm)
    rw [f64_inf_msb ha, f64_finite_msb hb]
    exact ⟨hab, bne_comm (a := sb) ▸ hba⟩

/-- R13: the product of two finite patterns is the exact product, rounded. -/
theorem mulRNE_rounds (ha : isFinite a) (hb : isFinite b) :
    ∃ m e, mulRNE a b = some (roundF64 (a.msb != b.msb) m e) ∧
      valueOf a * valueOf b = signFactor (a.msb != b.msb) * ((m : ℚ) * 2 ^ e) ∧
      |valueOf a * valueOf b| = (m : ℚ) * 2 ^ e := by
  obtain ⟨sa, ma, ea, ha⟩ := ha
  obtain ⟨sb, mb, eb, hb⟩ := hb
  rw [f64_finite_msb ha, f64_finite_msb hb]
  refine ⟨_, _, mulRNE_finite ha hb, valueOf_mul_valueOf ha hb, ?_⟩
  rw [valueOf_mul_valueOf ha hb, abs_mul, abs_signFactor, one_mul, abs_of_nonneg (by positivity)]

end Product

/-- Settles O39: the NaN and infinity cases by the product's equations; for two finite patterns, by the overflow
threshold and the nearness of `roundF64`. -/
theorem productRoundsToNearestEven : Obligations.ProductRoundsToNearestEven := by
  refine ⟨fun _ _ => mulRNE_nan, ?zero, ?infinite, ?finite⟩
  case zero =>
    rintro a b ⟨sa, ha⟩ ⟨sb, m, e, hb⟩ hzero
    obtain rfl := (valueOf_eq_zero_iff hb).mp hzero
    exact mulRNE_inf_zero ha hb
  case infinite =>
    intro a b ha hb
    obtain ⟨hab, hba⟩ := mulRNE_infinite ha hb
    exact ⟨⟨_, hab, f64_signed64_infMag _⟩, ⟨_, hba, f64_signed64_infMag _⟩⟩
  case finite =>
    intro a b ha hb
    obtain ⟨m, e, hmul, hexact, habs⟩ := mulRNE_rounds ha hb
    refine ⟨_, hmul, roundF64_msb _ _ _, fun hbig => ?_, fun hsmall => ?_⟩
    · rw [roundF64_overflow _ (habs ▸ hbig), f64_signed64_infMag]
    · rw [habs] at hsmall
      exact ⟨roundF64_isFinite _ hsmall, fun c hc => roundF64_nearest _ hsmall hc hexact⟩

end Sys2Proof.Machine
end

section
/-! # The two units share no datapath (00_scope.md R2)

For each unit, the relation of two states that agree on all that its command reads and writes. Each operation of the
command takes related states to related states, so the command does. -/

namespace Sys2Proof.Machine

/-- A guarded command keeps a relation that its fault entry and its effect keep. -/
theorem unlessFaulted_raiseOr_related {R : State → State → Prop} {s s' : State} {check : State → Option FaultCode}
    {run : State → State → State} (hrel : R s s') (hfault : s.fault = s'.fault) (hcheck : check s = check s')
    (hraise : ∀ c, R (raiseFault c s) (raiseFault c s')) (hrun : R (run s s) (run s' s')) :
    R (unlessFaulted s fun s => raiseOr (check s) (run s) s)
      (unlessFaulted s' fun s => raiseOr (check s) (run s) s') := by
  rcases unlessFaulted_cases s (fun s => raiseOr (check s) (run s) s) with ⟨hs, heq⟩ | ⟨hs, heq⟩
  · rw [heq, unlessFaulted_faulted _ (hfault ▸ hs)]
    exact hrel
  · rw [heq, unlessFaulted_clear _ (hfault ▸ hs), hcheck]
    cases check s' with
    | none => exact hrun
    | some c => exact hraise c

/-! ## The checks of both conversions -/

theorem block_congr {s s' : State} (h : s.blockLen = s'.blockLen) : s.block = s'.block := congrArg BitVec.toNat h

/-- The checks of both conversions read the configuration, the block length and the given flag alone. -/
theorem convertFault_congr {s s' : State} {v v' : Bool} (hconfig : s.config = s'.config)
    (hblock : s.blockLen = s'.blockLen) (hv : v = v') : convertFault s v = convertFault s' v' := by
  rw [convertFault, convertFault, block_congr hblock, hconfig, hv]

/-! ## The inbound converter -/

/-- Agreement on all that CVT_IN reads and writes. -/
structure SameInbound (s s' : State) : Prop where
  config : s.config = s'.config
  fault : s.fault = s'.fault
  blockLen : s.blockLen = s'.blockLen
  scaleIn : s.scaleIn = s'.scaleIn
  sinValid : s.sinValid = s'.sinValid
  cvtIn : s.cvtIn = s'.cvtIn
  dspIn : s.dspIn = s'.dspIn
  nanDraws : s.nanDraws = s'.nanDraws

/-- The draws advance exactly where the element's value is a NaN (41_convert.md R138). -/
theorem convertInElem_nanDraws (i : Nat) (v : Int) (s : State) :
    (convertInElem i v s).nanDraws =
      if (cvtInValue s.config s.scaleIn v).isNone then s.nanDraws + 1 else s.nanDraws := by
  unfold convertInElem
  split <;> simp_all

theorem SameInbound.convertInElem {s s' : State} (h : SameInbound s s') (i : Nat) (v : Int) :
    SameInbound (convertInElem i v s) (convertInElem i v s') where
  config := by simpa using h.config
  fault := by simpa using h.fault
  blockLen := by simpa using h.blockLen
  scaleIn := by simpa using h.scaleIn
  sinValid := by simpa using h.sinValid
  cvtIn := by simpa using h.cvtIn
  dspIn := by rw [convertInElem_dspIn, convertInElem_dspIn, h.dspIn, h.config, h.scaleIn, h.nanDraws]
  nanDraws := by rw [convertInElem_nanDraws, convertInElem_nanDraws, h.config, h.scaleIn, h.nanDraws]

theorem SameInbound.convertInPair {s s' : State} (h : SameInbound s s') (k : Nat) :
    SameInbound (convertInPair k s) (convertInPair k s') := by
  unfold Machine.convertInPair
  rw [h.cvtIn]
  exact (h.convertInElem _ _).convertInElem _ _

theorem SameInbound.convertInFrom {s s' : State} (h : SameInbound s s') (n k : Nat) :
    SameInbound (convertInFrom n k s) (convertInFrom n k s') := by
  induction n generalizing k s s' with
  | zero => exact h
  | succ n ih => exact ih (h.convertInPair k) (k + 1)

theorem SameInbound.raiseFault {s s' : State} (h : SameInbound s s') (c : FaultCode) :
    SameInbound (raiseFault c s) (raiseFault c s') :=
  { h with fault := rfl }

/-- CVT_IN takes states that its unit cannot tell apart to such states. -/
theorem SameInbound.exec_cvtIn {s s' : State} (h : SameInbound s s') :
    ∃ t t', exec .cvtIn s = .next t ∧ exec .cvtIn s' = .next t' ∧ SameInbound t t' := by
  refine ⟨_, _, rfl, rfl, unlessFaulted_raiseOr_related h h.fault
    (convertFault_congr h.config h.blockLen h.sinValid) h.raiseFault ?_⟩
  rw [block_congr h.blockLen]
  exact h.convertInFrom _ 0

/-! ## The outbound converter -/

/-- Agreement on all that CVT_OUT reads and writes. -/
structure SameOutbound (s s' : State) : Prop where
  config : s.config = s'.config
  fault : s.fault = s'.fault
  blockLen : s.blockLen = s'.blockLen
  scaleOut : s.scaleOut = s'.scaleOut
  soutValid : s.soutValid = s'.soutValid
  dspOut : s.dspOut = s'.dspOut
  audioOut : s.audioOut = s'.audioOut

theorem SameOutbound.convertOutPair {s s' : State} (h : SameOutbound s s') (k : Nat) :
    SameOutbound (convertOutPair k s) (convertOutPair k s') :=
  { h with
    audioOut := by
      rw [convertOutPair_audioOut, convertOutPair_audioOut, h.audioOut, h.config, h.scaleOut, h.dspOut] }

theorem SameOutbound.convertOutFrom {s s' : State} (h : SameOutbound s s') (n k : Nat) :
    SameOutbound (convertOutFrom n k s) (convertOutFrom n k s') := by
  induction n generalizing k s s' with
  | zero => exact h
  | succ n ih => exact ih (h.convertOutPair k) (k + 1)

theorem SameOutbound.raiseFault {s s' : State} (h : SameOutbound s s') (c : FaultCode) :
    SameOutbound (raiseFault c s) (raiseFault c s') :=
  { h with fault := rfl }

/-- CVT_OUT takes states that its unit cannot tell apart to such states. -/
theorem SameOutbound.exec_cvtOut {s s' : State} (h : SameOutbound s s') :
    ∃ t t', exec .cvtOut s = .next t ∧ exec .cvtOut s' = .next t' ∧ SameOutbound t t' := by
  refine ⟨_, _, rfl, rfl, unlessFaulted_raiseOr_related h h.fault
    (convertFault_congr h.config h.blockLen h.soutValid) h.raiseFault ?_⟩
  rw [block_congr h.blockLen]
  exact h.convertOutFrom _ 0

/-! ## The decoder -/

/-- Agreement on all that DECODE reads and writes between commands: not on the walk, which it starts itself. -/
structure SameDecoder (s s' : State) : Prop where
  config : s.config = s'.config
  fault : s.fault = s'.fault
  decCfg : s.decCfg = s'.decCfg
  frameLen : s.frameLen = s'.frameLen
  frameIn : s.frameIn = s'.frameIn
  iqOut : s.iqOut = s'.iqOut
  micOut : s.micOut = s'.micOut
  iqCount : s.iqCount = s'.iqCount
  micCount : s.micCount = s'.micCount

section Decoder

variable {s s' : State}

theorem SameDecoder.rxCount_eq (h : SameDecoder s s') : s.rxCount = s'.rxCount := by
  rw [State.rxCount, State.rxCount, h.decCfg]

theorem SameDecoder.rxSel_eq (h : SameDecoder s s') : s.rxSel = s'.rxSel := by
  rw [State.rxSel, State.rxSel, h.decCfg]

theorem SameDecoder.rate_eq (h : SameDecoder s s') : s.rate = s'.rate := by
  rw [State.rate, State.rate, h.decCfg]

theorem SameDecoder.decim_eq (h : SameDecoder s s') : s.decim = s'.decim := by
  rw [State.decim, State.decim, h.rate_eq]

theorem SameDecoder.declaredLen_eq (h : SameDecoder s s') : s.declaredLen = s'.declaredLen := by
  rw [State.declaredLen, State.declaredLen, h.frameLen]

theorem SameDecoder.walkState_eq (h : SameDecoder s s') (w : Walk) : s.walkState w = s'.walkState w := by
  rw [State.walkState, State.walkState, h.rxCount_eq, h.rxSel_eq]

/-- DECODE's checks read nothing of the converter's. -/
theorem SameDecoder.decodeFault_eq (h : SameDecoder s s') : decodeFault s = decodeFault s' := by
  have hvalidate : validate s = validate s' := by
    rw [validate, validate, h.rxCount_eq, h.rxSel_eq, h.rate_eq, h.config, h.declaredLen_eq]
  have hsync : checkSync s = checkSync s' := by
    rw [checkSync, checkSync, h.config, h.frameIn]
  have hbounds : boundsCheck s = boundsCheck s' := by
    rw [boundsCheck, boundsCheck, h.rxCount_eq, h.rxSel_eq, h.decim_eq, h.declaredLen_eq]
  rw [decodeFault, decodeFault, hvalidate, hsync, hbounds]

theorem SameDecoder.raiseFault (h : SameDecoder s s') (c : FaultCode) :
    SameDecoder (raiseFault c s) (raiseFault c s') :=
  { h with fault := rfl }

theorem SameDecoder.withWalk (h : SameDecoder s s') (w w' : Option Walk) :
    SameDecoder { s with walk := w } { s' with walk := w' } :=
  { h with }

/-- A round of the walk keeps the agreement, and leaves the two walks at one position. -/
theorem SameDecoder.walkStep (h : SameDecoder s s') (w : Walk) :
    SameDecoder (walkStep w s) (walkStep w s') ∧ (walkStep w s).walk = (walkStep w s').walk := by
  rw [walkStep_eq, walkStep_eq, h.walkState_eq, h.declaredLen_eq]
  cases s'.walkState w with
  | iq =>
    simp only
    split
    · exact ⟨{ h with iqOut := by simp only [h.iqOut, h.frameIn] }, rfl⟩
    · exact ⟨(h.raiseFault .geometry).withWalk none none, rfl⟩
  | siq k => exact ⟨h.withWalk _ _, rfl⟩
  | mic =>
    simp only
    split
    · exact ⟨{ h with micOut := by simp only [h.micOut, h.frameIn] }, by simp only [h.decim_eq]⟩
    · exact ⟨(h.raiseFault .geometry).withWalk none none, rfl⟩
  | sm j => exact ⟨h.withWalk _ _, by simp only [micSkipGroup_walk, h.decim_eq]⟩
  | pad => exact ⟨h.withWalk _ _, rfl⟩
  | done =>
    simp only [endSubframe]
    split
    · exact ⟨h.withWalk _ _, rfl⟩
    · exact ⟨{ h with iqCount := rfl, micCount := rfl }, rfl⟩

theorem SameDecoder.runWalk (h : SameDecoder s s') (hwalk : s.walk = s'.walk) (fuel : Nat) :
    SameDecoder (runWalk fuel s) (runWalk fuel s') := by
  induction fuel generalizing s s' with
  | zero => exact h
  | succ fuel ih =>
    cases hw : s.walk with
    | none => rwa [runWalk_none _ hw, runWalk_none _ (hwalk ▸ hw)]
    | some w =>
      rw [runWalk_some _ hw, runWalk_some _ (hwalk ▸ hw)]
      obtain ⟨hstep, hnext⟩ := h.walkStep w
      exact ih hstep hnext

/-- DECODE takes states that the decoder cannot tell apart to such states. -/
theorem SameDecoder.exec_decode (h : SameDecoder s s') :
    ∃ t t', exec .decode s = .next t ∧ exec .decode s' = .next t' ∧ SameDecoder t t' :=
  ⟨_, _, rfl, rfl, unlessFaulted_raiseOr_related h h.fault h.decodeFault_eq h.raiseFault
    ((h.withWalk (some Walk.start) (some Walk.start)).runWalk rfl walkFuel)⟩

end Decoder

/-- Settles O54: each unit's command keeps the agreement on all that the unit reads and writes. -/
theorem unitsShareNoDatapath : Obligations.UnitsShareNoDatapath := by
  intro s s' hconfig hfault
  refine ⟨?inbound, ?outbound, ?decoder⟩
  case inbound =>
    intro hblock hscale hvalid hcvt hdsp hdraws
    obtain ⟨t, t', ht, ht', hsame⟩ :=
      SameInbound.exec_cvtIn ⟨hconfig, hfault, hblock, hscale, hvalid, hcvt, hdsp, hdraws⟩
    exact ⟨t, t', ht, ht', hsame.dspIn, hsame.fault⟩
  case outbound =>
    intro hblock hscale hvalid hdsp haudio
    obtain ⟨t, t', ht, ht', hsame⟩ :=
      SameOutbound.exec_cvtOut ⟨hconfig, hfault, hblock, hscale, hvalid, hdsp, haudio⟩
    exact ⟨t, t', ht, ht', hsame.audioOut, hsame.fault⟩
  case decoder =>
    intro hcfg hlen hframe hiq hmic hiqCount hmicCount
    obtain ⟨t, t', ht, ht', hsame⟩ :=
      SameDecoder.exec_decode ⟨hconfig, hfault, hcfg, hlen, hframe, hiq, hmic, hiqCount, hmicCount⟩
    exact ⟨t, t', ht, ht', hsame.iqOut, hsame.micOut, hsame.iqCount, hsame.micCount, hsame.fault⟩

end Sys2Proof.Machine
end

section
/-! # What an instruction can do to the registers (10_state.md R21 to R36)

Three kinds of instruction: one that resets, a store to a register, and every other, which leaves alone all that the
host programs. The constancy of PARAMS and the writers of the scale flags follow from this. -/

namespace Sys2Proof.Machine

open Sys2Proof.Claims

/-! ## The register at an offset -/

/-- The named registers stand 8 bytes apart, from offset 0 on (R21). -/
theorem regSlot_offset {n : Nat} (h : regSlot n ≠ .reserved) : (regSlot n).offset.toNat = 8 * n := by
  unfold regSlot at h ⊢
  split <;> simp_all [Reg.offset]

/-- A named register is at no other offset than its own. -/
theorem offset_of_regAt {off : BitVec 20} {r : Reg} (h : regAt off = some r) (hr : r ≠ .reserved) :
    off = r.offset := by
  unfold regAt at h
  split at h
  · next hok =>
    simp only [regOffsetOk, Bool.and_eq_true, decide_eq_true_eq] at hok
    obtain rfl := Option.some.inj h
    have hslot := regSlot_offset hr
    exact BitVec.eq_of_toNat_eq (by omega)
  · cases h

/-! ## Instructions that leave alone what the host programs -/

/-- `t` differs from `s` in FAULT, the counts, the buffers, the walk, the port's response and the NaNs drawn at most:
the configuration, the read/write registers and the scale flags are as before, and so is what the platform holds. -/
def keepsProgramming (s t : State) : Prop :=
  t = { s with
    fault := t.fault, iqCount := t.iqCount, micCount := t.micCount
    frameIn := t.frameIn, iqOut := t.iqOut, micOut := t.micOut, cvtIn := t.cvtIn
    dspIn := t.dspIn, dspOut := t.dspOut, audioOut := t.audioOut
    walk := t.walk, response := t.response, nanDraws := t.nanDraws }

theorem keepsProgramming.config {s t : State} (h : keepsProgramming s t) : t.config = s.config := by rw [h]

theorem keepsProgramming.sinValid {s t : State} (h : keepsProgramming s t) : t.sinValid = s.sinValid := by rw [h]

theorem keepsProgramming.soutValid {s t : State} (h : keepsProgramming s t) : t.soutValid = s.soutValid := by rw [h]

theorem writeSpace_keepsProgramming (s : State) (sp : Space) (off : Nat) (v : Word) :
    keepsProgramming s (s.writeSpace sp off v) := by
  cases sp <;> rfl

/-- A guarded command leaves alone what its effect leaves alone: ignored it changes nothing, and a fault is FAULT's
alone (R153, 60_exceptions.md R171). -/
theorem unlessFaulted_raiseOr_keepsProgramming {s : State} {check : State → Option FaultCode}
    {run : State → State → State} (hrun : keepsProgramming s (run s s)) :
    keepsProgramming s (unlessFaulted s fun s => raiseOr (check s) (run s) s) := by
  rcases unlessFaulted_cases s (fun s => raiseOr (check s) (run s) s) with ⟨-, heq⟩ | ⟨-, heq⟩
  · rw [heq]
    rfl
  · rw [heq]
    cases check s with
    | none => exact hrun
    | some c => rfl

theorem execDecode_keepsProgramming {s t : State} (h : execDecode s = .next t) : keepsProgramming s t := by
  cases h
  refine unlessFaulted_raiseOr_keepsProgramming (run := fun _ => demultiplex) ?_
  rw [keepsProgramming, demultiplex, runWalk_frame]

theorem execCvtIn_keepsProgramming {s t : State} (h : execCvtIn s = .next t) : keepsProgramming s t := by
  cases h
  refine unlessFaulted_raiseOr_keepsProgramming (run := fun s => convertInFrom s.block 0) ?_
  rw [keepsProgramming, convertInFrom_eq]

theorem execCvtOut_keepsProgramming {s t : State} (h : execCvtOut s = .next t) : keepsProgramming s t := by
  cases h
  refine unlessFaulted_raiseOr_keepsProgramming (run := fun s => convertOutFrom s.block 0) ?_
  rw [keepsProgramming, convertOutFrom_eq]

theorem execIllegal_keepsProgramming (w : BitVec 64) {s t : State} (h : execIllegal w s = .next t) :
    keepsProgramming s t := by
  cases h
  exact unlessFaulted_raiseOr_keepsProgramming (check := fun _ => some .illegalCmd) (run := fun _ s => s) rfl

theorem iqCopyGroup_keepsProgramming (i q : BitVec 24) (w : Walk) (s : State) :
    keepsProgramming s (iqCopyGroup i q w s) := by
  rcases iqCopyGroup_cases i q w s with ⟨-, heq⟩ | ⟨-, heq⟩ <;> rw [heq] <;> rfl

theorem micCopyGroup_keepsProgramming (m : BitVec 16) (w : Walk) (s : State) :
    keepsProgramming s (micCopyGroup m w s) := by
  rcases micCopyGroup_cases m w s with ⟨-, heq⟩ | ⟨-, heq⟩ <;> rw [heq] <;> rfl

/-- A payload group leaves alone what its effect leaves alone. -/
theorem whenSelected_keepsProgramming {k : GroupKind} {s t : State} {f : Walk → State}
    (h : whenSelected k s f = .next t) (hf : ∀ w, keepsProgramming s (f w)) : keepsProgramming s t := by
  obtain ⟨w, -, -, rfl⟩ := whenSelected_next h
  exact hf w

/-! ## The three kinds of instruction -/

/-- What an instruction from `s` to `t` is: one that resets, a store to a register other than CMD, or one that leaves
alone what the host programs. -/
inductive RegisterEffect (i : Instr) (s t : State) : Prop
  | reset (hi : isReset i) (ht : t = applyReset s)
  | store (off : BitVec 20) (r : Reg) (v : BitVec 64) (hi : i = .regWr off v) (hoff : regAt off = some r)
      (hr : r ≠ .cmd) (ht : t = s.writeReg r v)
  | keeps (h : keepsProgramming s t)

/-- A write to CMD has the effect of the command it starts (R154). -/
theorem command_registerEffect {v : BitVec 64} {s t : State} (h : command v s = .next t) :
    RegisterEffect (.regWr 0x00#20 v) s t := by
  rcases command_cases v s with ⟨-, hcmd⟩ | ⟨-, hcmd⟩ | ⟨-, hcmd⟩ | ⟨-, hcmd⟩ | ⟨rfl, hcmd⟩ | ⟨-, hcmd⟩ <;>
    rw [hcmd] at h
  · cases h
    exact .keeps rfl
  · exact .keeps (execDecode_keepsProgramming h)
  · exact .keeps (execCvtIn_keepsProgramming h)
  · exact .keeps (execCvtOut_keepsProgramming h)
  · cases h
    exact .reset (.inr rfl) rfl
  · exact .keeps (execIllegal_keepsProgramming v h)

theorem exec_registerEffect {i : Instr} {s t : State} (h : exec i s = .next t) : RegisterEffect i s t := by
  cases i with
  | nop => cases h; exact .keeps rfl
  | decode => exact .keeps (execDecode_keepsProgramming h)
  | cvtIn => exact .keeps (execCvtIn_keepsProgramming h)
  | cvtOut => exact .keeps (execCvtOut_keepsProgramming h)
  | reset => cases h; exact .reset (.inl rfl) rfl
  | illegal w => exact .keeps (execIllegal_keepsProgramming w h)
  | regRd off =>
    obtain ⟨r, -, rfl⟩ := execRegRd_next h
    exact .keeps rfl
  | regWr off v =>
    rcases execRegWr_next h with ⟨hoff, hcmd⟩ | ⟨r, hr, hoff, rfl⟩
    · obtain rfl := offset_of_regAt hoff nofun
      exact command_registerEffect hcmd
    · exact .store off r v rfl hoff hr rfl
  | bufRd sp off =>
    obtain ⟨-, rfl⟩ := execBufRd_next h
    exact .keeps rfl
  | bufWr sp off data =>
    obtain ⟨-, rfl⟩ := execBufWr_next h
    exact .keeps (writeSpace_keepsProgramming s sp off.toNat data)
  | iqCopy i q => exact .keeps (whenSelected_keepsProgramming h fun w => iqCopyGroup_keepsProgramming i q w s)
  | iqSkip i q => exact .keeps (whenSelected_keepsProgramming h fun _ => rfl)
  | micCopy m => exact .keeps (whenSelected_keepsProgramming h fun w => micCopyGroup_keepsProgramming m w s)
  | micSkip m => exact .keeps (whenSelected_keepsProgramming h fun _ => rfl)
  | pad p => exact .keeps (whenSelected_keepsProgramming h fun _ => rfl)

/-! ## PARAMS (R33) -/

/-- The three fields of PARAMS, at bits 0, 16 and 17. -/
theorem paramsWord_toNat {c : Config} (h : c.legal = true) :
    (paramsWord c).toNat = c.maxBlockLen + 65536 * c.strictSync.toNat +
      131072 * (if c.micDecim384 = .refuse then 1 else 0) := by
  simp only [Config.legal, Bool.and_eq_true, decide_eq_true_eq] at h
  obtain ⟨-, hmax⟩ := h
  have hfield : c.maxBlockLen % 2 ^ 16 = c.maxBlockLen := Nat.mod_eq_of_lt (by omega)
  simp only [paramsWord, BitVec.toNat_setWidth, BitVec.toNat_append, BitVec.toNat_ofNat, hfield, BitVec.toNat_ofBool]
  rw [← Nat.shiftLeft_add_eq_or_of_lt (by omega), ← Nat.shiftLeft_add_eq_or_of_lt (Bool.toNat_lt _)]
  cases c.strictSync <;> cases c.micDecim384 <;> simp [beq_eq_decide] <;> omega

theorem exec_config {i : Instr} {s t : State} (h : exec i s = .next t) : t.config = s.config := by
  cases exec_registerEffect h with
  | reset _ ht => rw [ht, applyReset_config]
  | store _ r v _ _ _ ht => rw [ht, writeReg_config]
  | keeps hkeeps => exact hkeeps.config

theorem takeRst_config (asserted : Bool) (s : State) : (takeRst asserted s).config = s.config := by
  unfold takeRst
  split <;> rfl

/-- All that a step of a walk in progress can do: an instruction, or END. -/
theorem step_walk_cases {s t : State} {w : Walk} (hw : s.walk = some w) (h : step s = .next t) :
    (∃ i, exec i s = .next t) ∨ t = endSubframe w s := by
  simp only [step, hw, stepWalk] at h
  split at h
  · next i _ => exact .inl ⟨i, h⟩
  · cases h
  · cases h
    exact .inr rfl

theorem step_config {s t : State} (h : step s = .next t) : t.config = s.config := by
  cases hw : s.walk with
  | none =>
    rcases step_cases hw h with ⟨-, rfl⟩ | ⟨w, rest, i, -, -, -, hexec⟩ | ⟨b, rest, -, rfl⟩ | ⟨rest, -, rfl⟩
    · rfl
    · exact (exec_config hexec).trans (consume_config ..)
    · exact (takeRst_config b _).trans (consume_config ..)
    · rfl
  | some w =>
    rcases step_walk_cases hw h with ⟨i, hexec⟩ | rfl
    · exact exec_config hexec
    · exact endSubframe_config w s

/-- Settles O44: PARAMS by its three fields, and the configuration by what an instruction can do to the registers. -/
theorem paramsHoldsConfiguration : Obligations.ParamsHoldsConfiguration :=
  ⟨fun _ => paramsWord_toNat, fun _ _ _ => exec_config, fun _ _ => step_config⟩

/-! ## Read after write (R34) -/

/-- A register of `n` bits stores the low `n` bits and reads the others as 0. -/
theorem setWidth_extractLsb'_zero (v : BitVec 64) (n : Nat) :
    (v.extractLsb' 0 n).setWidth 64 = BitVec.ofNat 64 (v.toNat % 2 ^ n) := by
  apply BitVec.eq_of_toNat_eq
  simp

theorem ofNat_toNat_mod (v : BitVec 64) : BitVec.ofNat 64 (v.toNat % 2 ^ 64) = v := by
  rw [Nat.mod_eq_of_lt v.isLt, BitVec.ofNat_toNat, BitVec.setWidth_eq]

/-- Where a register reads back the low `n` bits of what is stored to it, so does the port. -/
theorem exec_regRd_of_exec_regWr {off : BitVec 20} {r : Reg} {v : BitVec 64} {s t : State} {n : Nat}
    (hoff : regAt off = some r) (hr : r ≠ .cmd)
    (hback : (s.writeReg r v).readReg r = BitVec.ofNat 64 (v.toNat % 2 ^ n)) (h : exec (.regWr off v) s = .next t) :
    exec (.regRd off) t = .next { t with response := some (BitVec.ofNat 64 (v.toNat % 2 ^ n)) } := by
  rcases execRegWr_next h with ⟨hcmd, -⟩ | ⟨r', -, hr', rfl⟩
  · exact absurd (Option.some.inj (hoff.symm.trans hcmd)) hr
  · obtain rfl : r = r' := Option.some.inj (hoff.symm.trans hr')
    rw [← hback]
    simp only [exec, execRegRd, hoff, State.respond]

/-- Settles O49: each read/write register reads back the bits it has. -/
theorem registerReadBack : Obligations.RegisterReadBack := by
  intro s t v p hp h
  simp only [List.mem_cons, List.not_mem_nil, or_false] at hp
  rcases hp with rfl | rfl | rfl | rfl | rfl
  · exact exec_regRd_of_exec_regWr (r := .decCfg) rfl nofun (setWidth_extractLsb'_zero v 7) h
  · exact exec_regRd_of_exec_regWr (r := .frameLen) rfl nofun (setWidth_extractLsb'_zero v 11) h
  · exact exec_regRd_of_exec_regWr (r := .blockLen) rfl nofun (setWidth_extractLsb'_zero v 16) h
  · exact exec_regRd_of_exec_regWr (r := .scaleIn) rfl nofun (ofNat_toNat_mod v).symm h
  · exact exec_regRd_of_exec_regWr (r := .scaleOut) rfl nofun (ofNat_toNat_mod v).symm h

/-! ## The scale flags (R24) -/

theorem writeReg_sinValid (s : State) {r : Reg} (hr : r ≠ .scaleIn) (v : Word) :
    (s.writeReg r v).sinValid = s.sinValid := by
  cases r with
  | scaleIn => exact absurd rfl hr
  | _ => rfl

theorem writeReg_soutValid (s : State) {r : Reg} (hr : r ≠ .scaleOut) (v : Word) :
    (s.writeReg r v).soutValid = s.soutValid := by
  cases r with
  | scaleOut => exact absurd rfl hr
  | _ => rfl

/-- A flag that register `r`'s store sets, a reset clears and nothing else touches has these two writers alone. -/
theorem exec_flag_ne {flag : State → Bool} {r : Reg} {i : Instr} {s t : State} (hr : r ≠ .reserved)
    (hreset : flag (applyReset s) = false) (hset : ∀ v, flag (s.writeReg r v) = true)
    (hother : ∀ r' v, r' ≠ r → flag (s.writeReg r' v) = flag s) (hkeeps : keepsProgramming s t → flag t = flag s)
    (h : exec i s = .next t) (hne : flag t ≠ flag s) :
    (flag t = true ∧ ∃ v, i = .regWr r.offset v) ∨ flag t = false ∧ isReset i := by
  cases exec_registerEffect h with
  | reset hi ht => exact .inr ⟨ht ▸ hreset, hi⟩
  | store off r' v hi hoff _ ht =>
    subst ht
    obtain rfl : r' = r := by_contra fun hr' => hne (hother r' v hr')
    exact .inl ⟨hset v, v, offset_of_regAt hoff hr ▸ hi⟩
  | keeps hk => exact absurd (hkeeps hk) hne

/-- Settles O52: of the three kinds of instruction, only a store to the flag's own scale and a reset touch it. -/
theorem scaleFlagsHaveOneWriter : Obligations.ScaleFlagsHaveOneWriter := by
  intro i s t h
  constructor
  · exact exec_flag_ne (r := .scaleIn) nofun (applyReset_sinValid s) (fun _ => rfl)
      (fun _ v hr => writeReg_sinValid s hr v) keepsProgramming.sinValid h
  · exact exec_flag_ne (r := .scaleOut) nofun (applyReset_soutValid s) (fun _ => rfl)
      (fun _ v hr => writeReg_soutValid s hr v) keepsProgramming.soutValid h

end Sys2Proof.Machine
end

section
/-! # The decoder's internal registers stay in their ranges (10_state.md R38)

A round of the walk either ends it or moves its registers in one of six ways. Each of the six keeps the ranges: the
cursor and the phase by the position's arithmetic, the write pointers by the check that goes before every copy. -/

namespace Sys2Proof.Machine

open Sys2Proof.Claims

/-! ## The fields of DEC_CFG as numbers (R25) -/

theorem rxCount_eq_cfgN (s : State) : s.rxCount = cfgN s := by
  simp [State.rxCount, cfgN]

theorem rate_eq_cfgRate (s : State) : s.rate = cfgRate s := by
  have := s.decCfg.isLt
  simp only [State.rate, cfgRate, BitVec.extractLsb'_toNat, Nat.shiftRight_eq_div_pow]
  omega

theorem decim_eq_two_pow (s : State) : s.decim = 2 ^ cfgRate s := by
  rw [State.decim, decimation, rate_eq_cfgRate]

/-! ## What a round does to the registers -/

theorem iqWp_le_of_iqCopyOk {len : Nat} {w : Walk} (h : iqCopyOk len w = true) : w.iqWp + 6 ≤ iqOutBytes := by
  simp only [iqCopyOk, Bool.and_eq_true, decide_eq_true_eq] at h
  exact h.2

theorem micWp_le_of_micCopyOk {len : Nat} {w : Walk} (h : micCopyOk len w = true) : w.micWp + 2 ≤ micOutBytes := by
  simp only [micCopyOk, Bool.and_eq_true, decide_eq_true_eq] at h
  exact h.2

/-- All that a round can do to the registers of a walk that it does not end, for `n` receivers of which `sel` is
selected and the decimation factor `d` (40_decode.md R104 to R110). -/
inductive Walk.Round (n sel d : Nat) (w : Walk) : Walk → Prop
  | pad (hper : w.per = periods n) (hcur : w.cur < payloadBytes) : Round n sel d w w.afterPad
  | nextSubframe (hper : w.per = periods n) (hcur : payloadBytes ≤ w.cur) (hsf : w.sf = 0) :
      Round n sel d w w.nextSubframe
  | iqCopy (hper : w.per ≠ periods n) (hslot : w.slot < n) (hsel : w.slot = sel) (hiq : w.iqWp + 6 ≤ iqOutBytes) :
      Round n sel d w w.afterIqCopy
  | iqSkip (hper : w.per ≠ periods n) (hslot : w.slot < n) (hsel : w.slot ≠ sel) : Round n sel d w w.afterIqSkip
  | micCopy (hper : w.per ≠ periods n) (hslot : n ≤ w.slot) (hphase : w.mphase = 0)
      (hmic : w.micWp + 2 ≤ micOutBytes) : Round n sel d w (w.afterMicCopy d)
  | micSkip (hper : w.per ≠ periods n) (hslot : n ≤ w.slot) (hphase : w.mphase ≠ 0) :
      Round n sel d w (w.afterMicSkip d)

theorem walkStep_round {w w' : Walk} {s : State} (h : (walkStep w s).walk = some w') :
    w.Round s.rxCount s.rxSel s.decim w' := by
  rw [walkStep_eq, State.walkState] at h
  rcases classify_cases s.rxCount s.rxSel w with
    ⟨hstate, hper, hcur⟩ | ⟨hstate, hper, hcur⟩ | ⟨hstate, hper, hslot, hsel⟩ | ⟨⟨k, hstate⟩, hper, hslot, hsel⟩ |
    ⟨hstate, hper, hslot, hphase⟩ | ⟨hstate, hper, hslot, hphase⟩ <;> simp only [hstate] at h
  · cases h
    exact .pad hper hcur
  · rw [endSubframe] at h
    split at h
    · next hsf =>
      cases h
      exact .nextSubframe hper hcur hsf
    · cases h
  · split at h
    · next hok =>
      cases h
      exact .iqCopy hper hslot hsel (iqWp_le_of_iqCopyOk hok)
    · cases h
  · cases h
    exact .iqSkip hper hslot hsel
  · split at h
    · next hok =>
      cases h
      exact .micCopy hper hslot hphase (micWp_le_of_micCopyOk hok)
    · cases h
  · cases h
    exact .micSkip hper hslot hphase

/-! ## The ranges -/

/-- R38's ranges for `n` receivers and the decimation factor `d`, with where the cursor stands: at the slot of the
period, or past the padding. A sub-frame's last period ends at slot 0. -/
structure Walk.InRange (n d : Nat) (w : Walk) : Prop where
  sf : w.sf ≤ 1
  slot : w.slot ≤ n
  per : w.per ≤ periods n
  slot_last : w.per = periods n → w.slot = 0
  mphase : w.mphase = w.per % d
  cur : w.cur = periodBytes n * w.per + 6 * w.slot ∨ w.per = periods n ∧ w.cur = payloadBytes
  iqWp : w.iqWp ≤ iqOutBytes
  micWp : w.micWp ≤ micOutBytes

section Rounds

variable {n d : Nat} {w : Walk}

/-- The walk starts every register at 0 (R103). -/
theorem Walk.start_inRange : Walk.start.InRange n d := by
  constructor <;> simp [Walk.start]

theorem Walk.InRange.afterPad (h : w.InRange n d) (hper : w.per = periods n) : w.afterPad.InRange n d :=
  { h with cur := .inr ⟨hper, rfl⟩ }

theorem Walk.InRange.nextSubframe (h : w.InRange n d) (hsf : w.sf = 0) : w.nextSubframe.InRange n d where
  sf := by simp [Walk.nextSubframe, hsf]
  slot := Nat.zero_le _
  per := Nat.zero_le _
  slot_last _ := rfl
  mphase := (Nat.zero_mod d).symm
  cur := .inl rfl
  iqWp := h.iqWp
  micWp := h.micWp

/-- Before the last period is complete the cursor is the slot's. -/
theorem Walk.InRange.cur_eq (h : w.InRange n d) (hper : w.per ≠ periods n) :
    w.cur = periodBytes n * w.per + 6 * w.slot :=
  h.cur.resolve_right fun hend => hper hend.1

theorem Walk.InRange.afterIqSkip (h : w.InRange n d) (hper : w.per ≠ periods n) (hslot : w.slot < n) :
    w.afterIqSkip.InRange n d :=
  { h with
    slot := hslot
    slot_last := fun hlast => absurd hlast hper
    cur := .inl (by simp only [Walk.afterIqSkip, h.cur_eq hper]; omega) }

/-- IQ_COPY moves as IQ_SKIP does, and its write pointer by the group's 6 bytes. -/
theorem Walk.InRange.afterIqCopy (h : w.InRange n d) (hper : w.per ≠ periods n) (hslot : w.slot < n)
    (hiq : w.iqWp + 6 ≤ iqOutBytes) : w.afterIqCopy.InRange n d :=
  { h.afterIqSkip hper hslot with iqWp := hiq }

/-- The microphone group is the period's last, at slot `n`: the period is complete, and the phase goes on by 1. -/
theorem Walk.InRange.afterMicSkip (h : w.InRange n d) (hper : w.per ≠ periods n) (hslot : n ≤ w.slot) :
    (w.afterMicSkip d).InRange n d :=
  { h with
    slot := Nat.zero_le _
    per := Nat.lt_of_le_of_ne h.per hper
    slot_last := fun _ => rfl
    mphase := by simp only [Walk.afterMicSkip, h.mphase, Nat.mod_add_mod]
    cur := .inl (by
      simp only [Walk.afterMicSkip, h.cur_eq hper, le_antisymm h.slot hslot, periodBytes, iqGroupBytes,
        micGroupBytes]
      ring) }

/-- MIC_COPY moves as MIC_SKIP does, and its write pointer by the group's 2 bytes. -/
theorem Walk.InRange.afterMicCopy (h : w.InRange n d) (hper : w.per ≠ periods n) (hslot : n ≤ w.slot)
    (hmic : w.micWp + 2 ≤ micOutBytes) : (w.afterMicCopy d).InRange n d :=
  { h.afterMicSkip hper hslot with micWp := hmic }

/-- The periods of a payload, with the slots of one in progress, end within it. -/
theorem Walk.InRange.cur_le (h : w.InRange n d) : w.cur ≤ payloadBytes := by
  rcases h.cur with hcur | ⟨-, hend⟩
  · have hperiods : periodBytes n * periods n ≤ payloadBytes := Nat.mul_div_le _ _
    rcases h.per.eq_or_lt with hlast | hlt
    · rw [hcur, h.slot_last hlast, hlast]
      omega
    · have hnext : periodBytes n * (w.per + 1) ≤ periodBytes n * periods n := Nat.mul_le_mul_left _ hlt
      have hslots : 6 * w.slot ≤ periodBytes n := by
        have := h.slot
        simp only [periodBytes, iqGroupBytes]
        omega
      rw [Nat.mul_add_one] at hnext
      omega
  · exact hend.le

end Rounds

/-! ## Every round, and every walk -/

theorem Walk.Round.inRange {n sel d : Nat} {w w' : Walk} (h : w.Round n sel d w') (hw : w.InRange n d) :
    w'.InRange n d := by
  cases h with
  | pad hper _ => exact hw.afterPad hper
  | nextSubframe _ _ hsf => exact hw.nextSubframe hsf
  | iqCopy hper hslot _ hiq => exact hw.afterIqCopy hper hslot hiq
  | iqSkip hper hslot _ => exact hw.afterIqSkip hper hslot
  | micCopy hper hslot _ hmic => exact hw.afterMicCopy hper hslot hmic
  | micSkip hper hslot _ => exact hw.afterMicSkip hper hslot

theorem walkStep_rxCount (w : Walk) (s : State) : (walkStep w s).rxCount = s.rxCount := by
  rw [walkStep_frame]
  rfl

theorem walkStep_decim (w : Walk) (s : State) : (walkStep w s).decim = s.decim := by
  rw [walkStep_frame]
  rfl

/-- A walk whose registers are in the ranges keeps them there, for as many rounds as it goes on. -/
theorem runWalk_inRange (k : Nat) {s : State} {w' : Walk} (hs : ∀ w, s.walk = some w → w.InRange s.rxCount s.decim)
    (h : (runWalk k s).walk = some w') : w'.InRange s.rxCount s.decim := by
  induction k generalizing s with
  | zero => exact hs w' h
  | succ k ih =>
    cases hw : s.walk with
    | none =>
      rw [runWalk_none _ hw] at h
      exact hs w' h
    | some w =>
      rw [runWalk_some _ hw] at h
      have hnext : ∀ w₁, (walkStep w s).walk = some w₁ → w₁.InRange s.rxCount s.decim :=
        fun _ hstep => (walkStep_round hstep).inRange (hs w hw)
      rw [← walkStep_rxCount w s, ← walkStep_decim w s] at hnext ⊢
      exact ih hnext h

/-- Settles O26: every round keeps the ranges, and the registers start in them, whatever the
configuration. -/
theorem walkRegistersStayInRange : Obligations.WalkRegistersStayInRange := by
  intro s k w _ h
  have hw : w.InRange s.rxCount s.decim :=
    runWalk_inRange (s := { s with walk := some Walk.start }) k
      (fun _ hstart => Option.some.inj hstart ▸ Walk.start_inRange) h
  rw [rxCount_eq_cfgN, decim_eq_two_pow] at hw
  exact ⟨hw.sf, hw.cur_le, hw.slot, hw.mphase ▸ Nat.mod_lt _ (Nat.two_pow_pos _), hw.per, hw.iqWp, hw.micWp,
    hw.mphase, hw.cur⟩

end Sys2Proof.Machine
end

section
/-! # A DECODE that passes its checks completes (40_decode.md R111 to R116)

Along a walk the write pointers count the groups copied so far: one IQ group a period, and the microphone groups at
the phase 0 of every `d` periods. So every copy is in bounds, and the counts at the end are R116's. Each round uses up
at least 2 bytes of a payload or ends a sub-frame, so the 506 rounds of the loop are enough. -/

namespace Sys2Proof.Machine

open Sys2Proof.Safety

/-! ## How many groups a walk has copied -/

/-- The microphone groups copied in the first `per` periods of a sub-frame, one in `d` from the first on (R115). -/
def copiedMics (d per : Nat) : Nat := (per + d - 1) / d

theorem copiedMics_succ {d : Nat} (hd : 0 < d) (per : Nat) :
    copiedMics d (per + 1) = copiedMics d per + if per % d = 0 then 1 else 0 := by
  have hdvd : d ∣ per + d - 1 + 1 ↔ per % d = 0 := by
    rw [show per + d - 1 + 1 = per + d by omega, Nat.dvd_add_self_right, Nat.dvd_iff_mod_eq_zero]
  rw [copiedMics, copiedMics, show per + 1 + d - 1 = per + d - 1 + 1 by omega, Nat.succ_div]
  simp only [hdvd]

theorem copiedMics_mono (d : Nat) {p p' : Nat} (h : p ≤ p') : copiedMics d p ≤ copiedMics d p' :=
  Nat.div_le_div_right (by omega)

theorem copiedMics_le {d : Nat} (hd : 0 < d) (per : Nat) : copiedMics d per ≤ per := by
  have := Nat.le_mul_of_pos_right per hd
  refine Nat.le_of_lt_succ ((Nat.div_lt_iff_lt_mul hd).mpr ?_)
  rw [Nat.succ_mul]
  omega

theorem copiedMics_zero {d : Nat} (hd : 0 < d) : copiedMics d 0 = 0 :=
  Nat.le_zero.mp (copiedMics_le hd 0)

/-- R38's ranges, with the write pointers at 6 and 2 bytes for each group copied: `sel`'s group of every period passed,
and of the period in progress once its slot is passed. -/
structure Walk.Counted (n sel d : Nat) (w : Walk) : Prop extends w.InRange n d where
  iqCopied : w.iqWp = 6 * (w.sf * periods n + w.per + if sel < w.slot then 1 else 0)
  micCopied : w.micWp = 2 * (w.sf * copiedMics d (periods n) + copiedMics d w.per)

theorem Walk.start_counted {n sel d : Nat} (hd : 0 < d) : Walk.start.Counted n sel d :=
  { Walk.start_inRange with
    iqCopied := by simp [Walk.start]
    micCopied := by simp [Walk.start, copiedMics_zero hd] }

theorem Walk.Round.counted {n sel d : Nat} {w w' : Walk} (h : w.Round n sel d w') (hsel : sel < n) (hd : 0 < d)
    (hw : w.Counted n sel d) : w'.Counted n sel d := by
  refine { h.inRange hw.toInRange with iqCopied := ?iq, micCopied := ?mic }
  all_goals
    have hiq := hw.iqCopied
    have hmic := hw.micCopied
    have hphase := hw.mphase
  case iq =>
    cases h with
    | pad => exact hiq
    | nextSubframe hper _ hsf => simpa [Walk.nextSubframe, hsf, hw.slot_last hper, hper] using hiq
    | iqCopy _ _ hslot => simp only [Walk.afterIqCopy]; grind
    | iqSkip _ _ hslot => simp only [Walk.afterIqSkip]; grind
    | micCopy _ hslot => simp only [Walk.afterMicCopy]; grind
    | micSkip _ hslot => simp only [Walk.afterMicSkip]; grind
  case mic =>
    have hsucc := copiedMics_succ hd w.per
    cases h with
    | pad => exact hmic
    | nextSubframe hper _ hsf => simpa [Walk.nextSubframe, hsf, hper, copiedMics_zero hd] using hmic
    | iqCopy => exact hmic
    | iqSkip => exact hmic
    | micCopy _ _ hphase0 => simp only [Walk.afterMicCopy]; grind
    | micSkip _ _ hphase0 => simp only [Walk.afterMicSkip]; grind

/-! ## Every access is in bounds (R112) -/

/-- A sub-frame's payload lies within the frame (30_encoding.md R71). -/
theorem frameReadOk_of_le {w : Walk} {k : Nat} (hsf : w.sf ≤ 1) (hcur : w.cur + k ≤ payloadBytes) :
    frameReadOk frameBytes w.source k = true := by
  have hbase : payloadBase w.sf + payloadBytes ≤ frameBytes := by
    simp only [payloadBase, ccBase, syncBase, headerBytes, subframeBytes, syncBytes, ccBytes, payloadBytes, frameBytes]
    omega
  simp only [frameReadOk, Bool.and_self, decide_eq_true_eq]
  simp only [Walk.source]
  omega

section InBounds

variable {n sel d : Nat} {w : Walk}

/-- No payload has more than 63 periods, those of one receiver (30_encoding.md R76). -/
theorem periods_le (hn : 1 ≤ n) : periods n ≤ 63 := by
  have : payloadBytes / periodBytes n ≤ payloadBytes / periodBytes 1 :=
    Nat.div_le_div_left (Nat.add_le_add_right (Nat.mul_le_mul_left _ hn) _) (by decide)
  exact this

/-- A walk's share of the two sub-frames' groups, of which it has `p` in this one and each has at most 63. -/
theorem two_subframes_le {sf p total : Nat} (hsf : sf ≤ 1) (hp : p ≤ total) (htotal : total ≤ 63) :
    sf * total + p ≤ 126 := by
  have : sf * total ≤ 1 * total := Nat.mul_le_mul_right _ hsf
  omega

theorem Walk.Counted.iqCopyOk (h : w.Counted n sel d) (hn : 1 ≤ n) (hper : w.per ≠ periods n) (hslot : w.slot < n)
    (hsel : w.slot = sel) : iqCopyOk frameBytes w = true := by
  have hlt : w.per + 1 ≤ periods n := Nat.lt_of_le_of_ne h.per hper
  have hcur : w.cur + 6 ≤ payloadBytes := (h.afterIqSkip hper hslot).cur_le
  have hcopied := two_subframes_le h.sf hlt (periods_le hn)
  have hiq := h.iqCopied
  rw [hsel, if_neg (lt_irrefl _)] at hiq
  have hroom : w.iqWp + 6 ≤ iqOutBytes := by
    simp only [iqOutBytes]
    omega
  simp [Machine.iqCopyOk, frameReadOk_of_le h.sf hcur, hroom]

theorem Walk.Counted.micCopyOk (h : w.Counted n sel d) (hn : 1 ≤ n) (hd : 0 < d) (hper : w.per ≠ periods n)
    (hslot : n ≤ w.slot) (hphase : w.mphase = 0) : micCopyOk frameBytes w = true := by
  have hlt : w.per + 1 ≤ periods n := Nat.lt_of_le_of_ne h.per hper
  have hcur : w.cur + 2 ≤ payloadBytes := (h.afterMicSkip hper hslot).cur_le
  have hcopied := two_subframes_le h.sf (copiedMics_mono d hlt) ((copiedMics_le hd _).trans (periods_le hn))
  rw [copiedMics_succ hd, if_pos (h.mphase ▸ hphase)] at hcopied
  have hmic := h.micCopied
  have hroom : w.micWp + 2 ≤ micOutBytes := by
    simp only [micOutBytes]
    omega
  simp [Machine.micCopyOk, frameReadOk_of_le h.sf hcur, hroom]

/-- A bound on the rounds a walk still takes: at least 2 bytes a round, and one END for each sub-frame. -/
def Walk.roundsLeft (w : Walk) : Nat := (1 - w.sf) * 253 + (505 - w.cur) / 2 + 1

/-- The check before the first write passes from every position of a walk, given the rounds it still takes. -/
theorem Walk.Counted.walkInBounds (h : w.Counted n sel d) (hn : 1 ≤ n) (hsel : sel < n) (hd : 0 < d) {fuel : Nat}
    (hfuel : w.roundsLeft ≤ fuel) : walkInBounds n sel d frameBytes fuel w = true := by
  induction fuel generalizing w with
  | zero => exact absurd hfuel (Nat.not_succ_le_zero _)
  | succ fuel ih =>
    have hnext : ∀ {w'}, w.Round n sel d w' → w'.roundsLeft < w.roundsLeft →
        Machine.walkInBounds n sel d frameBytes fuel w' = true := fun hround hless =>
      ih (hround.counted hsel hd h) (by omega)
    rw [Machine.walkInBounds]
    rcases classify_cases n sel w with
      ⟨hstate, hper, hcur⟩ | ⟨hstate, hper, hcur⟩ | ⟨hstate, hper, hslot, heq⟩ | ⟨⟨k, hstate⟩, hper, hslot, hne⟩ |
      ⟨hstate, hper, hslot, hphase⟩ | ⟨hstate, hper, hslot, hphase⟩ <;> simp only [hstate]
    · refine hnext (.pad hper hcur) ?_
      simp only [Walk.roundsLeft, Walk.afterPad, payloadBytes] at hcur ⊢
      omega
    · split
      · next hsf =>
        refine hnext (.nextSubframe hper hcur hsf) ?_
        simp only [Walk.roundsLeft, Walk.nextSubframe]
        omega
      · rfl
    · have hok := h.iqCopyOk hn hper hslot heq
      refine Bool.and_eq_true_iff.mpr ⟨hok, hnext (.iqCopy hper hslot heq (iqWp_le_of_iqCopyOk hok)) ?_⟩
      have hcur := (h.afterIqSkip hper hslot).cur_le
      simp only [Walk.roundsLeft, Walk.afterIqCopy, Walk.afterIqSkip, payloadBytes] at hcur ⊢
      omega
    · refine hnext (.iqSkip hper hslot hne) ?_
      have hcur := (h.afterIqSkip hper hslot).cur_le
      simp only [Walk.roundsLeft, Walk.afterIqSkip, payloadBytes] at hcur ⊢
      omega
    · have hok := h.micCopyOk hn hd hper hslot hphase
      refine Bool.and_eq_true_iff.mpr ⟨hok, hnext (.micCopy hper hslot hphase (micWp_le_of_micCopyOk hok)) ?_⟩
      have hcur := (h.afterMicSkip hper hslot).cur_le
      simp only [Walk.roundsLeft, Walk.afterMicCopy, Walk.afterMicSkip, payloadBytes] at hcur ⊢
      omega
    · refine hnext (.micSkip hper hslot hphase) ?_
      have hcur := (h.afterMicSkip hper hslot).cur_le
      simp only [Walk.roundsLeft, Walk.afterMicSkip, payloadBytes] at hcur ⊢
      omega

end InBounds

/-! ## A walk in bounds completes -/

theorem walkStep_rxSel (w : Walk) (s : State) : (walkStep w s).rxSel = s.rxSel := by
  rw [walkStep_frame]
  rfl

theorem walkStep_declaredLen (w : Walk) (s : State) : (walkStep w s).declaredLen = s.declaredLen := by
  rw [walkStep_frame]
  rfl

/-- The geometry that DEC_CFG and FRAME_LEN fix for a walk: N, sel, D and the declared length. No round changes it. -/
structure Geometry (n sel d len : Nat) (s : State) : Prop where
  rxCount : s.rxCount = n
  rxSel : s.rxSel = sel
  decim : s.decim = d
  declaredLen : s.declaredLen = len

section Completes

variable {n sel d len : Nat} {s : State}

theorem Geometry.walkStep (h : Geometry n sel d len s) (w : Walk) : Geometry n sel d len (walkStep w s) where
  rxCount := (walkStep_rxCount w s).trans h.rxCount
  rxSel := (walkStep_rxSel w s).trans h.rxSel
  decim := (walkStep_decim w s).trans h.decim
  declaredLen := (walkStep_declaredLen w s).trans h.declaredLen

/-- Where every access is in bounds, a round goes on with FAULT as it was, or is the END of the second sub-frame. -/
theorem walkStep_of_walkInBounds (hs : Geometry n sel d len s) {w : Walk} {fuel : Nat}
    (h : walkInBounds n sel d len (fuel + 1) w = true) :
    (∃ w', (walkStep w s).walk = some w' ∧ (walkStep w s).fault = s.fault ∧
      walkInBounds n sel d len fuel w' = true) ∨
    (w.per = periods n ∧ w.sf ≠ 0 ∧ walkStep w s = endSubframe w s) := by
  rw [walkInBounds] at h
  rw [walkStep_eq, State.walkState, hs.rxCount, hs.rxSel, hs.declaredLen]
  rcases classify_cases n sel w with
    ⟨hstate, -⟩ | ⟨hstate, hper, -⟩ | ⟨hstate, -⟩ | ⟨⟨k, hstate⟩, -⟩ | ⟨hstate, -⟩ | ⟨hstate, -⟩ <;>
    simp only [hstate] at h ⊢
  · exact .inl ⟨_, rfl, rfl, h⟩
  · by_cases hsf : w.sf = 0
    · rw [if_pos hsf] at h
      exact .inl ⟨w.nextSubframe, by rw [endSubframe, if_pos hsf], endSubframe_fault w s, h⟩
    · exact .inr ⟨hper, hsf, trivial⟩
  · obtain ⟨hok, hnext⟩ := Bool.and_eq_true_iff.mp h
    rw [if_pos hok]
    exact .inl ⟨_, rfl, rfl, hnext⟩
  · exact .inl ⟨_, rfl, rfl, h⟩
  · obtain ⟨hok, hnext⟩ := Bool.and_eq_true_iff.mp h
    rw [if_pos hok]
    exact .inl ⟨_, rfl, rfl, hs.decim ▸ hnext⟩
  · exact .inl ⟨_, rfl, rfl, hs.decim ▸ h⟩

/-- What a completed DECODE leaves: no walk, the given FAULT, and the counts of two sub-frames (R111, R116). -/
structure Completed (n d : Nat) (fault : BitVec 8) (t : State) : Prop where
  walk : t.walk = none
  fault : t.fault = fault
  iqCount : t.iqCount = BitVec.ofNat 16 (2 * periods n)
  micCount : t.micCount = BitVec.ofNat 16 (2 * copiedMics d (periods n))

/-- END of the second sub-frame completes the DECODE: the write pointers are those of all its groups. -/
theorem endSubframe_completed {w : Walk} (hw : w.Counted n sel d) (hper : w.per = periods n) (hsf : w.sf ≠ 0) :
    Completed n d s.fault (endSubframe w s) := by
  have hsf1 : w.sf = 1 := le_antisymm hw.sf (Nat.one_le_iff_ne_zero.mpr hsf)
  have hiq : w.iqWp / 6 = 2 * periods n := by
    rw [hw.iqCopied, hw.slot_last hper, hper, hsf1, if_neg (Nat.not_lt_zero _)]
    omega
  have hmic : w.micWp / 2 = 2 * copiedMics d (periods n) := by
    rw [hw.micCopied, hper, hsf1]
    omega
  rw [endSubframe, if_neg hsf, hiq, hmic]
  exact ⟨rfl, rfl, rfl, rfl⟩

theorem runWalk_completed {fuel : Nat} {w : Walk} (hs : Geometry n sel d len s) (hwalk : s.walk = some w)
    (hw : w.Counted n sel d) (hsel : sel < n) (hd : 0 < d) (h : walkInBounds n sel d len fuel w = true) :
    Completed n d s.fault (runWalk fuel s) := by
  induction fuel generalizing s w with
  | zero => cases h
  | succ fuel ih =>
    rw [runWalk_some _ hwalk]
    rcases walkStep_of_walkInBounds hs h with ⟨w', hwalk', hfault, hbounds⟩ | ⟨hper, hsf, hend⟩
    · have hround : w.Round n sel d w' := hs.rxCount ▸ hs.rxSel ▸ hs.decim ▸ walkStep_round hwalk'
      exact hfault ▸ ih (hs.walkStep w) hwalk' (hround.counted hsel hd hw) hbounds
    · have hdone := endSubframe_completed (s := s) hw hper hsf
      rwa [hend, runWalk_none _ hdone.walk]

end Completes

/-! ## DECODE's checks and its walk -/

theorem decim_pos (s : State) : 0 < s.decim := Nat.two_pow_pos _

/-- The configuration that passes R101's checks: N, sel and D in their ranges, and a whole frame declared. -/
theorem validate_eq_none {s : State} (h : validate s = none) :
    1 ≤ s.rxCount ∧ s.rxSel < s.rxCount ∧ s.rate ≤ 3 ∧ s.declaredLen = frameBytes := by
  unfold validate at h
  split at h
  · cases h
  split at h
  · cases h
  split at h
  · cases h
  split at h
  · cases h
  omega

theorem validate_of_decodeFault {s : State} (h : decodeFault s = none) : validate s = none := by
  unfold decodeFault at h
  split at h
  · cases h
  · assumption

/-- Where R101's checks have passed, so does R112's. -/
theorem walkInBounds_start {s : State} (h : validate s = none) :
    walkInBounds s.rxCount s.rxSel s.decim s.declaredLen walkFuel Walk.start = true := by
  obtain ⟨hn, hsel, -, hlen⟩ := validate_eq_none h
  rw [hlen]
  exact (Walk.start_counted (decim_pos s)).walkInBounds hn hsel (decim_pos s) (by decide)

/-- A DECODE that passes R101's checks completes. -/
theorem demultiplex_completed {s : State} (h : validate s = none) :
    Completed s.rxCount s.decim s.fault (demultiplex s) := by
  obtain ⟨-, hsel, -, -⟩ := validate_eq_none h
  exact runWalk_completed (s := { s with walk := some Walk.start }) ⟨rfl, rfl, rfl, rfl⟩ rfl
    (Walk.start_counted (decim_pos s)) hsel (decim_pos s) (walkInBounds_start h)

/-- The counts of the twelve configurations that pass R101's checks are R116's. -/
theorem completed_counts_legal {n rate : Nat} (hn : 1 ≤ n) (hn3 : n ≤ 3) (hrate : rate ≤ 3) :
    legalCounts.contains ((BitVec.ofNat 16 (2 * periods n)).toNat,
      (BitVec.ofNat 16 (2 * copiedMics (decimation rate) (periods n))).toNat) = true := by
  interval_cases n <;> interval_cases rate <;> decide

end Sys2Proof.Machine
end

section
/-! # What an instruction can do (20_memory.md R50)

Every instruction that answers has one of eight effects: on the registers the host programs and the response alone, a
fault, a reset, a host store, one of the three block commands with its checks passed, or a payload group. What an
instruction writes and what every step keeps follow from this one list. -/

namespace Sys2Proof.Machine

open Sys2Proof.Claims

/-! ## The list of effects -/

/-- `t` differs from `s` in the registers that the host programs and in the port's response at most: every buffer,
FAULT, the counts and the walk are as before. -/
def keepsResults (s t : State) : Prop :=
  t = { s with
    decCfg := t.decCfg, frameLen := t.frameLen, blockLen := t.blockLen
    scaleIn := t.scaleIn, scaleOut := t.scaleOut, sinValid := t.sinValid, soutValid := t.soutValid
    response := t.response }

theorem writeReg_keepsResults (s : State) (r : Reg) (v : Word) : keepsResults s (s.writeReg r v) := by
  cases r <;> rfl

/-- The instruction is a command: its word, or the write of that word to CMD (42_control.md R154). -/
def issues (c : Instr) (v : BitVec 64) (i : Instr) : Prop := i = c ∨ i = .regWr 0x00#20 v

/-- All that an instruction can do to a state. -/
inductive Effect (i : Instr) (s : State) : State → Prop
  | port {t : State} (h : keepsResults s t) : Effect i s t
  | fault (c : FaultCode) : Effect i s (raiseFault c s)
  | reset (hi : isReset i) : Effect i s (applyReset s)
  | store (sp : Space) (off : BitVec 20) (v : BitVec 64) (hi : i = .bufWr sp off v)
      (hoff : off.toNat < s.sizeOf sp) : Effect i s (s.writeSpace sp off.toNat v)
  | decode (hi : issues .decode 0x1#64 i) (hclear : s.fault = 0#8) (hok : decodeFault s = none) :
      Effect i s (demultiplex s)
  | cvtIn (hi : issues .cvtIn 0x2#64 i) (hok : convertFault s s.sinValid = none) :
      Effect i s (convertInFrom s.block 0 s)
  | cvtOut (hi : issues .cvtOut 0x3#64 i) (hok : convertFault s s.soutValid = none) :
      Effect i s (convertOutFrom s.block 0 s)
  | group (w : Walk) (hw : s.walk = some w) : Effect i s (performGroup i w s)

/-- A command that first looks for a fault is ignored, faults, or runs with its checks passed (R153, 60_exceptions.md
R171). -/
theorem guarded_effect {i : Instr} {s : State} {check : State → Option FaultCode} {run : State → State → State}
    (hrun : s.fault = 0#8 → check s = none → Effect i s (run s s)) :
    Effect i s (unlessFaulted s fun s => raiseOr (check s) (run s) s) := by
  rcases unlessFaulted_cases s (fun s => raiseOr (check s) (run s) s) with ⟨-, heq⟩ | ⟨hclear, heq⟩
  · rw [heq]
    exact .port rfl
  · rw [heq]
    cases hcheck : check s with
    | none => exact hrun hclear hcheck
    | some c => exact .fault c

theorem execDecode_effect {i : Instr} {s t : State} (hi : issues .decode 0x1#64 i) (h : execDecode s = .next t) :
    Effect i s t := by
  cases h
  exact guarded_effect (run := fun _ => demultiplex) (.decode hi)

theorem execCvtIn_effect {i : Instr} {s t : State} (hi : issues .cvtIn 0x2#64 i) (h : execCvtIn s = .next t) :
    Effect i s t := by
  cases h
  exact guarded_effect (run := fun s => convertInFrom s.block 0) fun _ => .cvtIn hi

theorem execCvtOut_effect {i : Instr} {s t : State} (hi : issues .cvtOut 0x3#64 i) (h : execCvtOut s = .next t) :
    Effect i s t := by
  cases h
  exact guarded_effect (run := fun s => convertOutFrom s.block 0) fun _ => .cvtOut hi

theorem execIllegal_effect {i : Instr} (w : BitVec 64) {s t : State} (h : execIllegal w s = .next t) :
    Effect i s t := by
  cases h
  exact guarded_effect (check := fun _ => some .illegalCmd) (run := fun _ s => s) nofun

/-- A write to CMD has the effect of the command it starts (R154). -/
theorem command_effect {v : BitVec 64} {s t : State} (h : command v s = .next t) :
    Effect (.regWr 0x00#20 v) s t := by
  rcases command_cases v s with ⟨-, hcmd⟩ | ⟨rfl, hcmd⟩ | ⟨rfl, hcmd⟩ | ⟨rfl, hcmd⟩ | ⟨rfl, hcmd⟩ | ⟨-, hcmd⟩ <;>
    rw [hcmd] at h
  · cases h
    exact .port rfl
  · exact execDecode_effect (.inr rfl) h
  · exact execCvtIn_effect (.inr rfl) h
  · exact execCvtOut_effect (.inr rfl) h
  · cases h
    exact .reset (.inr rfl)
  · exact execIllegal_effect v h

/-- A payload group that answers has its effect on the walk in progress. -/
theorem whenSelected_effect {i : Instr} {k : GroupKind} {s t : State}
    (h : whenSelected k s (fun w => performGroup i w s) = .next t) : Effect i s t := by
  obtain ⟨w, hw, -, rfl⟩ := whenSelected_next h
  exact .group w hw

theorem exec_effect {i : Instr} {s t : State} (h : exec i s = .next t) : Effect i s t := by
  cases i with
  | nop => cases h; exact .port rfl
  | decode => exact execDecode_effect (.inl rfl) h
  | cvtIn => exact execCvtIn_effect (.inl rfl) h
  | cvtOut => exact execCvtOut_effect (.inl rfl) h
  | reset => cases h; exact .reset (.inl rfl)
  | illegal w => exact execIllegal_effect w h
  | regRd off =>
    obtain ⟨r, -, rfl⟩ := execRegRd_next h
    exact .port rfl
  | regWr off v =>
    rcases execRegWr_next h with ⟨hoff, hcmd⟩ | ⟨r, -, -, rfl⟩
    · obtain rfl := offset_of_regAt hoff nofun
      exact command_effect hcmd
    · exact .port (writeReg_keepsResults s r v)
  | bufRd sp off =>
    obtain ⟨-, rfl⟩ := execBufRd_next h
    exact .port rfl
  | bufWr sp off data =>
    obtain ⟨hoff, rfl⟩ := execBufWr_next h
    exact .store sp off data rfl hoff
  | iqCopy i q => exact whenSelected_effect h
  | iqSkip i q => exact whenSelected_effect h
  | micCopy m => exact whenSelected_effect h
  | micSkip m => exact whenSelected_effect h
  | pad p => exact whenSelected_effect h

/-- Between commands, no instruction leaves a DECODE half done (R61). -/
theorem Effect.walk_none {i : Instr} {s t : State} (h : Effect i s t) (hw : s.walk = none) : t.walk = none := by
  cases h with
  | port hkeeps => rw [hkeeps]; exact hw
  | fault => exact hw
  | reset => rfl
  | store => rwa [writeSpace_walk]
  | decode _ _ hok => exact (demultiplex_completed (validate_of_decodeFault hok)).walk
  | cvtIn => rw [convertInFrom_eq]; exact hw
  | cvtOut => rw [convertOutFrom_eq]; exact hw
  | group w hsome => cases hw.symm.trans hsome

/-! ## The writers of each buffer (R50) -/

/-- A buffer holds in `t` what it holds in `s`. -/
def sameSpace (s t : State) : Space → Prop
  | .frameIn => t.frameIn = s.frameIn
  | .iqOut => t.iqOut = s.iqOut
  | .micOut => t.micOut = s.micOut
  | .cvtIn => t.cvtIn = s.cvtIn
  | .dspIn => t.dspIn = s.dspIn
  | .dspOut => t.dspOut = s.dspOut
  | .audioOut => t.audioOut = s.audioOut

/-- R50's column "block writes": the block command that writes a buffer, and for DECODE's two the payload group. -/
def blockWrites (i : Instr) : Space → Prop
  | .frameIn => False
  | .iqOut => issues .decode 0x1#64 i ∨ ∃ a b, i = .iqCopy a b
  | .micOut => issues .decode 0x1#64 i ∨ ∃ m, i = .micCopy m
  | .cvtIn => False
  | .dspIn => issues .cvtIn 0x2#64 i
  | .dspOut => False
  | .audioOut => issues .cvtOut 0x3#64 i

theorem keepsResults.sameSpace {s t : State} (h : keepsResults s t) (sp : Space) : sameSpace s t sp := by
  cases sp <;> rw [Machine.sameSpace, h]

theorem raiseFault_sameSpace (c : FaultCode) (s : State) (sp : Space) : sameSpace s (raiseFault c s) sp := by
  cases sp <;> rfl

theorem writeSpace_sameSpace (s : State) {sp sp' : Space} (h : sp' ≠ sp) (off : Nat) (v : Word) :
    sameSpace s (s.writeSpace sp off v) sp' := by
  cases sp <;> cases sp' <;> simp [sameSpace, State.writeSpace] at h ⊢

theorem demultiplex_sameSpace (s : State) {sp : Space} (hiq : sp ≠ .iqOut) (hmic : sp ≠ .micOut) :
    sameSpace s (demultiplex s) sp := by
  rw [demultiplex, runWalk_frame]
  cases sp with
  | iqOut => exact absurd rfl hiq
  | micOut => exact absurd rfl hmic
  | _ => rfl

theorem convertInFrom_sameSpace (n k : Nat) (s : State) {sp : Space} (h : sp ≠ .dspIn) :
    sameSpace s (convertInFrom n k s) sp := by
  rw [convertInFrom_eq]
  cases sp with
  | dspIn => exact absurd rfl h
  | _ => rfl

theorem convertOutFrom_sameSpace (n k : Nat) (s : State) {sp : Space} (h : sp ≠ .audioOut) :
    sameSpace s (convertOutFrom n k s) sp := by
  rw [convertOutFrom_eq]
  cases sp with
  | audioOut => exact absurd rfl h
  | _ => rfl

/-- Of the payload groups, IQ_COPY writes IQ_OUT alone, MIC_COPY MIC_OUT alone, and the others nothing. -/
theorem performGroup_writes (i : Instr) (w : Walk) (s : State) (sp : Space) :
    sameSpace s (performGroup i w s) sp ∨ blockWrites i sp := by
  cases i with
  | iqCopy i q =>
    cases sp with
    | iqOut => exact .inr (.inr ⟨i, q, rfl⟩)
    | _ => exact .inl (by simp [performGroup, sameSpace])
  | micCopy m =>
    cases sp with
    | micOut => exact .inr (.inr ⟨m, rfl⟩)
    | _ => exact .inl (by simp [performGroup, sameSpace])
  | _ => exact .inl (by cases sp <;> rfl)

theorem performGroup_counts (i : Instr) (w : Walk) (s : State) :
    (performGroup i w s).iqCount = s.iqCount ∧ (performGroup i w s).micCount = s.micCount := by
  cases i <;> simp [performGroup]

/-- An instruction that is no reset keeps a buffer, or is a writer that R50 lists for it. -/
theorem Effect.writes {i : Instr} {s t : State} (h : Effect i s t) (hreset : ¬isReset i) (sp : Space) :
    sameSpace s t sp ∨ (∃ off v, i = .bufWr sp off v) ∨ blockWrites i sp := by
  cases h with
  | port hkeeps => exact .inl (hkeeps.sameSpace sp)
  | fault c => exact .inl (raiseFault_sameSpace c s sp)
  | reset hi => exact absurd hi hreset
  | store sp' off v hi =>
    by_cases heq : sp = sp'
    · exact .inr (.inl ⟨off, v, heq ▸ hi⟩)
    · exact .inl (writeSpace_sameSpace s heq _ v)
  | decode hi =>
    by_cases hiq : sp = .iqOut
    · exact .inr (.inr (hiq ▸ .inl hi))
    by_cases hmic : sp = .micOut
    · exact .inr (.inr (hmic ▸ .inl hi))
    exact .inl (demultiplex_sameSpace s hiq hmic)
  | cvtIn hi =>
    by_cases hdsp : sp = .dspIn
    · exact .inr (.inr (hdsp ▸ hi))
    · exact .inl (convertInFrom_sameSpace _ _ s hdsp)
  | cvtOut hi =>
    by_cases haudio : sp = .audioOut
    · exact .inr (.inr (haudio ▸ hi))
    · exact .inl (convertOutFrom_sameSpace _ _ s haudio)
  | group w => exact (performGroup_writes i w s sp).imp_right .inr

/-- An instruction that is no reset keeps the counts, or is a DECODE that completed (10_state.md R31, R32). -/
theorem Effect.counts {i : Instr} {s t : State} (h : Effect i s t) (hreset : ¬isReset i) :
    (t.iqCount = s.iqCount ∧ t.micCount = s.micCount) ∨ (issues .decode 0x1#64 i ∧ t.fault = 0#8) := by
  cases h with
  | port hkeeps => rw [hkeeps]; exact .inl ⟨rfl, rfl⟩
  | fault => exact .inl ⟨rfl, rfl⟩
  | reset hi => exact absurd hi hreset
  | store => exact .inl ⟨writeSpace_iqCount .., writeSpace_micCount ..⟩
  | decode hi hclear hok =>
    exact .inr ⟨hi, (demultiplex_completed (validate_of_decodeFault hok)).fault.trans hclear⟩
  | cvtIn => rw [convertInFrom_eq]; exact .inl ⟨rfl, rfl⟩
  | cvtOut => rw [convertOutFrom_eq]; exact .inl ⟨rfl, rfl⟩
  | group w => exact .inl (performGroup_counts i w s)

/-- Settles O53: of the eight effects, each buffer's writers and the counts' are R50's. -/
theorem writersOfEachBuffer : Obligations.WritersOfEachBuffer := by
  intro i s t h hreset
  have heffect := exec_effect h
  have writers : ∀ sp, ¬sameSpace s t sp → (∃ off v, i = .bufWr sp off v) ∨ blockWrites i sp :=
    fun sp => (heffect.writes hreset sp).resolve_left
  refine ⟨fun hne => (writers .frameIn hne).resolve_right id, fun hne => (writers .cvtIn hne).resolve_right id,
    fun hne => (writers .dspOut hne).resolve_right id, writers .dspIn, writers .audioOut,
    fun hne => (writers .iqOut hne).imp_right or_assoc.mp, fun hne => (writers .micOut hne).imp_right or_assoc.mp,
    fun hne => (heffect.counts hreset).resolve_left ?_⟩
  rintro ⟨hiq, hmic⟩
  exact hne.elim (· hiq) (· hmic)

end Sys2Proof.Machine
end

section
/-! # What every step keeps (20_memory.md R61, 60_exceptions.md R170, 40_decode.md R116)

The invariant over the eight effects of an instruction. A block command writes within its buffer because its checks
passed, and a completed DECODE leaves counts of R116's table. -/

namespace Sys2Proof.Machine

open Sys2Proof.Safety

/-! ## The invariant, buffer by buffer -/

/-- A buffer's contents are canonical, and below its size of `n` elements. -/
def Memory.fits {w : Nat} (n : Nat) (m : Memory w) : Prop := m.wf = true ∧ m.below n = true

theorem Memory.fits.write {w n : Nat} {m : Memory w} (h : m.fits n) {a : Nat} (v : BitVec w) (ha : a < n) :
    (m.write a v).fits n :=
  ⟨Memory.wf_write m a v h.1, Memory.below_write m n a v h.2 ha⟩

/-- The same of a buffer of this chip. -/
def State.spaceFits (s : State) : Space → Prop
  | .frameIn => s.frameIn.fits (s.sizeOf .frameIn)
  | .iqOut => s.iqOut.fits (s.sizeOf .iqOut)
  | .micOut => s.micOut.fits (s.sizeOf .micOut)
  | .cvtIn => s.cvtIn.fits (s.sizeOf .cvtIn)
  | .dspIn => s.dspIn.fits (s.sizeOf .dspIn)
  | .dspOut => s.dspOut.fits (s.sizeOf .dspOut)
  | .audioOut => s.audioOut.fits (s.sizeOf .audioOut)

/-- What `inv` checks, by name. -/
structure Invariant (s : State) : Prop where
  config : s.config.legal = true
  fits : ∀ sp, s.spaceFits sp
  fault : s.fault.toNat ≤ 9
  counts : legalCounts.contains (s.iqCount.toNat, s.micCount.toNat) = true
  walk : s.walk = none

theorem buffers_iff (s : State) :
    buffersCanonical s = true ∧ buffersSized s = true ↔ ∀ sp, s.spaceFits sp := by
  simp only [buffersCanonical, buffersSized, Bool.and_eq_true]
  constructor
  · intro h sp
    cases sp <;> simp only [State.spaceFits, Memory.fits, h, and_self]
  · intro h
    have hframe := h .frameIn
    have hiq := h .iqOut
    have hmic := h .micOut
    have hcvt := h .cvtIn
    have hdspIn := h .dspIn
    have hdspOut := h .dspOut
    have haudio := h .audioOut
    simp only [State.spaceFits, Memory.fits] at *
    simp only [*, and_self]

theorem inv_iff (s : State) : inv s = true ↔ Invariant s := by
  have hbuffers := buffers_iff s
  simp only [inv, Bool.and_eq_true, decide_eq_true_eq, Option.isNone_iff_eq_none]
  constructor
  · rintro ⟨⟨⟨⟨⟨hconfig, hcanonical⟩, hsized⟩, hfault⟩, hcounts⟩, hwalk⟩
    exact ⟨hconfig, hbuffers.mp ⟨hcanonical, hsized⟩, hfault, hcounts, hwalk⟩
  · rintro ⟨hconfig, hfits, hfault, hcounts, hwalk⟩
    obtain ⟨hcanonical, hsized⟩ := hbuffers.mpr hfits
    exact ⟨⟨⟨⟨⟨hconfig, hcanonical⟩, hsized⟩, hfault⟩, hcounts⟩, hwalk⟩

/-! ## Buffers that fit go on to fit -/

theorem sameSpace.fits {s t : State} {sp : Space} (h : sameSpace s t sp) (hconfig : t.config = s.config)
    (hs : s.spaceFits sp) : t.spaceFits sp := by
  cases sp <;> simpa only [State.spaceFits, State.sizeOf, hconfig, show _ = _ from h] using hs

theorem writeSpace_fits {s : State} (hs : ∀ sp, s.spaceFits sp) {sp : Space} {off : Nat} (hoff : off < s.sizeOf sp)
    (v : Word) (sp' : Space) : (s.writeSpace sp off v).spaceFits sp' := by
  by_cases heq : sp' = sp
  · subst heq
    have hfits := hs sp'
    cases sp' <;> exact Memory.fits.write hfits _ hoff
  · exact (writeSpace_sameSpace s heq off v).fits (writeSpace_config ..) (hs sp')

theorem demultiplex_fits {s : State} (hs : ∀ sp, s.spaceFits sp) (sp : Space) : (demultiplex s).spaceFits sp := by
  obtain ⟨hiq, hiqBelow⟩ := hs .iqOut
  obtain ⟨hmic, hmicBelow⟩ := hs .micOut
  obtain ⟨hiq', hmic'⟩ := runWalk_wf walkFuel { s with walk := some Walk.start } ⟨hiq, hmic⟩
  obtain ⟨hiqBelow', hmicBelow'⟩ := runWalk_below walkFuel { s with walk := some Walk.start } ⟨hiqBelow, hmicBelow⟩
  by_cases heqIq : sp = .iqOut
  · subst heqIq
    exact ⟨hiq', hiqBelow'⟩
  by_cases heqMic : sp = .micOut
  · subst heqMic
    exact ⟨hmic', hmicBelow'⟩
  refine (demultiplex_sameSpace s heqIq heqMic).fits ?_ (hs sp)
  rw [demultiplex, runWalk_frame]

/-- A conversion whose checks passed has a block within MAX_BLOCK_LEN (41_convert.md R130, R134). -/
theorem block_le_of_convertFault {s : State} {valid : Bool} (h : convertFault s valid = none) :
    s.block ≤ s.config.maxBlockLen := by
  unfold convertFault at h
  split at h
  · cases h
  · omega

theorem convertInFrom_fits {s : State} (hs : ∀ sp, s.spaceFits sp) {n : Nat} (hn : n ≤ s.config.maxBlockLen)
    (sp : Space) : (convertInFrom n 0 s).spaceFits sp := by
  have hconfig : (convertInFrom n 0 s).config = s.config := by rw [convertInFrom_eq]
  by_cases heq : sp = .dspIn
  · subst heq
    obtain ⟨hwf, hbelow⟩ := hs .dspIn
    have hsize : 2 * (0 + n) ≤ s.sizeOf .dspIn := by
      simp only [State.sizeOf, Space.size]
      omega
    refine ⟨convertInFrom_wf n 0 s hwf, ?_⟩
    rw [State.sizeOf, hconfig]
    exact convertInFrom_below n 0 _ s hbelow hsize
  · exact (convertInFrom_sameSpace n 0 s heq).fits hconfig (hs sp)

theorem convertOutFrom_fits {s : State} (hs : ∀ sp, s.spaceFits sp) {n : Nat} (hn : n ≤ s.config.maxBlockLen)
    (sp : Space) : (convertOutFrom n 0 s).spaceFits sp := by
  have hconfig : (convertOutFrom n 0 s).config = s.config := by rw [convertOutFrom_eq]
  by_cases heq : sp = .audioOut
  · subst heq
    obtain ⟨hwf, hbelow⟩ := hs .audioOut
    have hsize : 4 * (0 + n) ≤ s.sizeOf .audioOut := by
      simp only [State.sizeOf, Space.size]
      omega
    refine ⟨convertOutFrom_wf n 0 s hwf, ?_⟩
    rw [State.sizeOf, hconfig]
    exact convertOutFrom_below n 0 _ s hbelow hsize
  · exact (convertOutFrom_sameSpace n 0 s heq).fits hconfig (hs sp)

/-! ## Every effect and every step -/

theorem Invariant.applyReset {s : State} (h : Invariant s) : Invariant (applyReset s) where
  config := h.config
  fits sp := by cases sp <;> exact ⟨rfl, rfl⟩
  fault := Nat.zero_le _
  counts := rfl
  walk := rfl

/-- A DECODE that passes its checks leaves counts of R116's table. -/
theorem Invariant.demultiplex {s : State} (h : Invariant s) (hok : decodeFault s = none) :
    Invariant (demultiplex s) := by
  have hvalid := validate_of_decodeFault hok
  have hdone := demultiplex_completed hvalid
  obtain ⟨hn, -, hrate, -⟩ := validate_eq_none hvalid
  have hn3 : s.rxCount ≤ 3 := Nat.le_of_lt_succ (s.decCfg.extractLsb' 0 2).isLt
  refine ⟨?_, demultiplex_fits h.fits, ?_, ?_, hdone.walk⟩
  · rw [Machine.demultiplex, runWalk_frame]
    exact h.config
  · rw [hdone.fault]
    exact h.fault
  · rw [hdone.iqCount, hdone.micCount]
    exact completed_counts_legal hn hn3 hrate

/-- What writes buffers alone keeps the invariant where it keeps them within their sizes. -/
theorem Invariant.of_fits {s t : State} (hs : Invariant s) (hfits : ∀ sp, t.spaceFits sp)
    (ht : t.config = s.config ∧ t.fault = s.fault ∧ t.iqCount = s.iqCount ∧ t.micCount = s.micCount ∧
      t.walk = s.walk) : Invariant t := by
  obtain ⟨hconfig, hfault, hiq, hmic, hwalk⟩ := ht
  exact ⟨hconfig ▸ hs.config, hfits, hfault ▸ hs.fault, by rw [hiq, hmic]; exact hs.counts, hwalk.trans hs.walk⟩

theorem Effect.invariant {i : Instr} {s t : State} (h : Effect i s t) (hs : Invariant s) : Invariant t := by
  cases h with
  | port hkeeps =>
    refine hs.of_fits (fun sp => (hkeeps.sameSpace sp).fits ?_ (hs.fits sp)) ?_ <;> rw [hkeeps]
    exact ⟨rfl, rfl, rfl, rfl, rfl⟩
  | fault c =>
    exact { hs with
      fits := fun sp => (raiseFault_sameSpace c s sp).fits rfl (hs.fits sp)
      fault := code_le c }
  | reset => exact hs.applyReset
  | store sp off v _ hoff => exact hs.of_fits (writeSpace_fits hs.fits hoff v) (by simp)
  | decode _ _ hok => exact hs.demultiplex hok
  | cvtIn _ hok =>
    refine hs.of_fits (convertInFrom_fits hs.fits (block_le_of_convertFault hok)) ?_
    rw [convertInFrom_eq]
    exact ⟨rfl, rfl, rfl, rfl, rfl⟩
  | cvtOut _ hok =>
    refine hs.of_fits (convertOutFrom_fits hs.fits (block_le_of_convertFault hok)) ?_
    rw [convertOutFrom_eq]
    exact ⟨rfl, rfl, rfl, rfl, rfl⟩
  | group w hw => cases hs.walk.symm.trans hw

/-- Taking an input changes nothing that the invariant speaks of. -/
theorem Invariant.consume {s : State} (h : Invariant s) (rest : List HostInput) : Invariant (s.consume rest) :=
  { h with fits := fun sp => sameSpace.fits (by cases sp <;> rfl) rfl (h.fits sp) }

theorem Invariant.takeRst {s : State} (h : Invariant s) (asserted : Bool) : Invariant (takeRst asserted s) := by
  unfold Machine.takeRst
  split
  · exact { h.applyReset with fits := fun sp => sameSpace.fits (by cases sp <;> rfl) rfl (h.applyReset.fits sp) }
  · exact h

/-- Settles O50: an instruction keeps the invariant by its effect, and so do the reset's sources. -/
theorem stepKeepsInvariant : Obligations.StepKeepsInvariant := by
  intro s t hs h
  rw [inv_iff] at hs ⊢
  rcases step_cases hs.walk h with ⟨-, rfl⟩ | ⟨w, rest, i, -, -, -, hexec⟩ | ⟨b, rest, -, rfl⟩ | ⟨rest, -, rfl⟩
  · exact hs
  · exact (exec_effect hexec).invariant (hs.consume rest)
  · exact (hs.consume rest).takeRst b
  · exact (hs.consume rest).applyReset

end Sys2Proof.Machine
end

section
/-! # Taking the host's transactions (20_memory.md R61, R62, R66, 42_control.md R159)

Which instructions a transaction's word can stand for, that every well-formed one of them is taken, and that a read is
taken again with the same response. -/

namespace Sys2Proof.Machine

/-! ## One transaction, one step -/

theorem step_txn {s : State} {w : BitVec 96} {rest : List HostInput} {i : Instr} (hwalk : s.walk = none)
    (hrst : s.rstI = false) (hin : s.inputs = .txn w :: rest) (hi : decodeTxn w = .ok i) :
    step s = exec i (s.consume rest) := by
  simp [step, takeInput, takeTxn, hwalk, hrst, hin, hi]

/-- Settles O5. -/
theorem stepRunsDecodedTransaction : Obligations.StepRunsDecodedTransaction :=
  fun _ _ _ _ => step_txn

/-! ## Well-formed transactions are taken -/

/-- The four instructions that a transaction's word can stand for (30_encoding.md R82). -/
inductive IsTxn : Instr → Prop
  | regRd (off : BitVec 20) : IsTxn (.regRd off)
  | regWr (off : BitVec 20) (v : BitVec 64) : IsTxn (.regWr off v)
  | bufRd (sp : Space) (off : BitVec 20) : IsTxn (.bufRd sp off)
  | bufWr (sp : Space) (off : BitVec 20) (v : BitVec 64) : IsTxn (.bufWr sp off v)

theorem isTxn_of_decodeTxn {w : BitVec 96} {i : Instr} (h : decodeTxn w = .ok i) : IsTxn i := by
  unfold decodeTxn at h
  dsimp only at h
  split at h
  · cases h
  split at h
  · split at h <;> cases h
    exact .regRd _
  split at h
  · split at h <;> cases h
    exact .regWr _ _
  split at h
  · cases h
  · split at h <;> cases h
    · exact .bufRd _ _
    · exact .bufWr _ _ _

/-- Every word written to CMD is taken (R153, R154). -/
theorem command_taken (v : BitVec 64) (s : State) : ∃ t, command v s = .next t := by
  rcases command_cases v s with ⟨-, h⟩ | ⟨-, h⟩ | ⟨-, h⟩ | ⟨-, h⟩ | ⟨-, h⟩ | ⟨-, h⟩ <;> exact ⟨_, h⟩

theorem regAt_of_regOffsetOk {off : BitVec 20} (h : regOffsetOk off = true) :
    regAt off = some (regSlot (off.toNat / 8)) := if_pos h

theorem exec_taken {i : Instr} (hi : IsTxn i) {s : State} (h : i.wellFormed s.config.maxBlockLen = true) :
    ∃ t, exec i s = .next t := by
  cases hi with
  | regRd off =>
    simp only [exec, execRegRd, regAt_of_regOffsetOk h]
    exact ⟨_, rfl⟩
  | regWr off v =>
    simp only [exec, execRegWr, regAt_of_regOffsetOk h]
    split
    · contradiction
    · exact command_taken v s
    · exact ⟨_, rfl⟩
  | bufRd sp off => exact ⟨_, if_pos (of_decide_eq_true h)⟩
  | bufWr sp off v => exact ⟨_, if_pos (of_decide_eq_true h)⟩

theorem keepsProgramming.inputs {s t : State} (h : keepsProgramming s t) : t.inputs = s.inputs := by rw [h]

theorem exec_inputs {i : Instr} {s t : State} (h : exec i s = .next t) : t.inputs = s.inputs := by
  cases exec_registerEffect h with
  | reset _ ht => rw [ht, applyReset_inputs]
  | store _ r v _ _ _ ht => rw [ht, writeReg_inputs]
  | keeps hkeeps => exact hkeeps.inputs

/-- Settles O55: a well-formed transaction is taken, and its effect leaves no walk and the rest of the inputs. -/
theorem wellFormedTransactionsAreTaken : Obligations.WellFormedTransactionsAreTaken := by
  intro s w rest i hwalk hrst hin hi hwf
  obtain ⟨t, ht⟩ := exec_taken (isTxn_of_decodeTxn hi) (s := s.consume rest) hwf
  exact ⟨t, (step_txn hwalk hrst hin hi).trans ht, (exec_effect ht).walk_none hwalk, exec_inputs ht⟩

/-! ## Reads (R62) -/

/-- A read's response is no part of what a read returns. -/
theorem readReg_respond (s : State) (v : Word) (r : Reg) : (s.respond v).readReg r = s.readReg r := by
  cases r <;> rfl

theorem readSpace_respond (s : State) (v : Word) (sp : Space) (off : Nat) :
    (s.respond v).readSpace sp off = s.readSpace sp off := by
  cases sp <;> rfl

theorem respond_respond (s : State) (v v' : Word) : (s.respond v).respond v' = s.respond v' := rfl

/-- Settles O48: a read answers the state with its response, which a repeated read does not see. -/
theorem readsAreIdempotent : Obligations.ReadsAreIdempotent := by
  rintro i s t (⟨off, rfl⟩ | ⟨sp, off, rfl⟩) h
  · obtain ⟨r, hr, rfl⟩ := execRegRd_next h
    refine ⟨rfl, rfl, ?_⟩
    simp only [exec, execRegRd, hr, readReg_respond, respond_respond]
  · obtain ⟨hoff, rfl⟩ := execBufRd_next h
    refine ⟨rfl, rfl, ?_⟩
    have hoff' : off.toNat < (s.respond (s.readSpace sp off.toNat)).sizeOf sp := hoff
    simp only [exec, execBufRd, if_pos hoff', readSpace_respond, respond_respond]

end Sys2Proof.Machine
end

section
/-! # DECODE's one step is its walk, round by round (20_memory.md R61, 40_decode.md R104; log 8)

A step of a walk in progress is one round of DECODE's loop, so the steps of a fresh walk are the loop's rounds until it
ends; and a legal DECODE with its sync bytes in place is that loop. -/

namespace Sys2Proof.Machine

open Sys2Proof.Claims

/-! ## A step is a round -/

/-- The group that the position selects is never refused: a step of a walk in progress is one round of the loop. -/
theorem step_eq_walkStep {s : State} {w : Walk} (hw : s.walk = some w) : step s = .next (walkStep w s) := by
  have hgroup : ∀ k, (s.walkState w).group = some k → ∀ f, whenSelected k s f = .next (f w) :=
    fun _ hk f => whenSelected_eq f hw hk
  simp only [step, hw, stepWalk, walkStep, fetchGroup_eq]
  cases hstate : s.walkState w with
  | done => rfl
  | _ => exact hgroup _ (congrArg WalkState.group hstate) _

/-- As many steps as the loop has rounds before it ends give what the loop gives. -/
theorem run_eq_runWalk (fuel : Nat) (s : State) :
    ∃ k, k ≤ fuel ∧ Host.Core.run Sys2Proof.core k s = .next (runWalk fuel s) := by
  induction fuel generalizing s with
  | zero => exact ⟨0, Nat.le_refl 0, rfl⟩
  | succ fuel ih =>
    cases hw : s.walk with
    | none => exact ⟨0, Nat.zero_le _, by rw [runWalk_none _ hw]; rfl⟩
    | some w =>
      obtain ⟨k, hk, hrun⟩ := ih (walkStep w s)
      have hstep : Sys2Proof.core.step s = .next (walkStep w s) := step_eq_walkStep hw
      refine ⟨k + 1, Nat.succ_le_succ hk, ?_⟩
      rw [runWalk_some _ hw, ← hrun]
      simp only [Host.Core.run, hstep]

/-! ## A legal DECODE passes its checks -/

theorem rxSel_eq_cfgSel (s : State) : s.rxSel = cfgSel s := by
  simp [State.rxSel, cfgSel, Nat.shiftRight_eq_div_pow]

/-- R101's checks pass for what DECODE accepts. -/
theorem validate_of_decodeLegal {s : State} (h : decodeLegal s) : validate s = none := by
  obtain ⟨hn, hsel, hrate, hlen⟩ := h
  have hrate' : ¬(3 < cfgRate s ∨ cfgRate s = 3 ∧ s.config.micDecim384 = .refuse) := by
    rintro (hbig | ⟨heq, hrefuse⟩)
    · omega
    · rcases hrate with hsmall | ⟨-, height⟩
      · omega
      · cases height.symm.trans hrefuse
  have hdeclared : s.declaredLen = frameBytes := by rw [State.declaredLen, hlen]; rfl
  rw [validate, rxCount_eq_cfgN, rxSel_eq_cfgSel, rate_eq_cfgRate, if_neg (by omega), if_neg (by omega),
    if_neg hrate', if_neg (not_not_intro hdeclared)]

/-- R102's check passes where the sync bytes are in place, or are not asked for. -/
theorem checkSync_of_syncInPlace {s : State} (h : s.config.strictSync = true → syncInPlace s.frameIn) :
    checkSync s = none := by
  rw [checkSync, if_neg]
  intro hfail
  obtain ⟨hstrict, hbad⟩ := Bool.and_eq_true_iff.mp hfail
  have hsync := h hstrict
  simp only [syncInPlace] at hsync
  simp [syncOk, Memory.readSeq, syncBase, headerBytes, subframeBytes, hsync] at hbad

theorem decodeFault_of_decodeLegal {s : State} (hlegal : decodeLegal s)
    (hsync : s.config.strictSync = true → syncInPlace s.frameIn) : decodeFault s = none := by
  have hvalid := validate_of_decodeLegal hlegal
  rw [decodeFault, hvalid, checkSync_of_syncInPlace hsync]
  exact if_pos (walkInBounds_start hvalid)

theorem exec_decode_of_decodeFault {s : State} (hclear : s.fault = 0#8) (hok : decodeFault s = none) :
    exec .decode s = .next (demultiplex s) := by
  simp only [exec, execDecode, unlessFaulted_clear _ hclear, hok, raiseOr_none]

/-- Settles O25: DECODE is the loop from a fresh walk, and the loop's rounds are steps. -/
theorem atomicDecodeIsStepwiseWalk : Obligations.AtomicDecodeIsStepwiseWalk := by
  intro s hclear hlegal hsync
  rw [exec_decode_of_decodeFault hclear (decodeFault_of_decodeLegal hlegal hsync)]
  exact run_eq_runWalk walkFuel { s with walk := some Walk.start }

end Sys2Proof.Machine
end

section
/-! # The encoder's words and what they decode to (30_encoding.md R79, R81, R82)

A transaction's word is put together from its fields and its fields are read back from it, so the words that decode
are exactly the ones that `TxnWordOf` lists. Both directions between words and transactions follow from this. -/

namespace Sys2Proof

/-! ## Appended fields as numbers -/

theorem toNat_append_eq_add {m n : Nat} (x : BitVec m) (y : BitVec n) :
    (x ++ y).toNat = x.toNat * 2 ^ n + y.toNat := by
  rw [BitVec.toNat_append, ← Nat.shiftLeft_add_eq_or_of_lt y.isLt, Nat.shiftLeft_eq]

theorem toNat_extractLsb'_eq_div_mod {n : Nat} (start len : Nat) (x : BitVec n) :
    (x.extractLsb' start len).toNat = x.toNat / 2 ^ start % 2 ^ len := by
  rw [BitVec.extractLsb'_toNat, Nat.shiftRight_eq_div_pow]

/-! ## The fields of a transaction's word (R82) -/

section Fields

variable (kind : BitVec 2) (space : BitVec 3) (off : BitVec 20) (data : BitVec 64)

theorem txnWord_toNat : (txnWord kind space off data).toNat =
    kind.toNat + 2 ^ 2 * space.toNat + 2 ^ 8 * off.toNat + 2 ^ 32 * data.toNat := by
  simp only [txnWord, toNat_append_eq_add, BitVec.toNat_ofNat]
  omega

/-- Any bits of a transaction's word, as a number made of its fields. -/
theorem txnWord_extractLsb'_toNat (start len : Nat) : ((txnWord kind space off data).extractLsb' start len).toNat =
    (kind.toNat + 2 ^ 2 * space.toNat + 2 ^ 8 * off.toNat + 2 ^ 32 * data.toNat) / 2 ^ start % 2 ^ len := by
  rw [toNat_extractLsb'_eq_div_mod, txnWord_toNat]

@[simp] theorem txnWord_kind : (txnWord kind space off data).extractLsb' 0 2 = kind :=
  BitVec.eq_of_toNat_eq (by rw [txnWord_extractLsb'_toNat]; omega)

@[simp] theorem txnWord_space : (txnWord kind space off data).extractLsb' 2 3 = space :=
  BitVec.eq_of_toNat_eq (by rw [txnWord_extractLsb'_toNat]; omega)

@[simp] theorem txnWord_reservedLow : (txnWord kind space off data).extractLsb' 5 3 = 0#3 :=
  BitVec.eq_of_toNat_eq (by rw [txnWord_extractLsb'_toNat, BitVec.toNat_ofNat]; omega)

@[simp] theorem txnWord_off : (txnWord kind space off data).extractLsb' 8 20 = off :=
  BitVec.eq_of_toNat_eq (by rw [txnWord_extractLsb'_toNat]; omega)

@[simp] theorem txnWord_reservedHigh : (txnWord kind space off data).extractLsb' 28 4 = 0#4 :=
  BitVec.eq_of_toNat_eq (by rw [txnWord_extractLsb'_toNat, BitVec.toNat_ofNat]; omega)

@[simp] theorem txnWord_data : (txnWord kind space off data).extractLsb' 32 64 = data :=
  BitVec.eq_of_toNat_eq (by rw [txnWord_extractLsb'_toNat]; omega)

/-- The word with its DATA field zero. -/
theorem zero_append_txnWord : 0#64 ++ (txnWord kind space off data).extractLsb' 0 32 = txnWord kind space off 0#64 :=
  BitVec.eq_of_toNat_eq (by
    rw [toNat_append_eq_add, txnWord_extractLsb'_toNat, txnWord_toNat, BitVec.toNat_ofNat]; omega)

end Fields

/-- A word with zero reserved bits is the word of its fields. -/
theorem txnWord_of_fields {w : BitVec 96} (hlow : w.extractLsb' 5 3 = 0#3) (hhigh : w.extractLsb' 28 4 = 0#4) :
    txnWord (w.extractLsb' 0 2) (w.extractLsb' 2 3) (w.extractLsb' 8 20) (w.extractLsb' 32 64) = w := by
  have hlow' := congrArg BitVec.toNat hlow
  have hhigh' := congrArg BitVec.toNat hhigh
  apply BitVec.eq_of_toNat_eq
  simp only [txnWord_toNat, toNat_extractLsb'_eq_div_mod, BitVec.toNat_ofNat] at hlow' hhigh' ⊢
  omega

/-! ## The buffer with a space id (20_memory.md R50) -/

@[simp] theorem Space.ofId_toId (sp : Space) : Space.ofId sp.toId = some sp := by cases sp <;> rfl

theorem Space.toId_of_ofId {b : BitVec 3} {sp : Space} (h : Space.ofId b = some sp) : sp.toId = b := by
  revert b; cases sp <;> decide

/-! ## The words that decode -/

/-- A word and the transaction it stands for; a read's DATA is any value. -/
inductive TxnWordOf : BitVec 96 → Instr → Prop
  | regRd (off : BitVec 20) (data : BitVec 64) : TxnWordOf (txnWord 0#2 0#3 off data) (.regRd off)
  | regWr (off : BitVec 20) (v : BitVec 64) : TxnWordOf (txnWord 1#2 0#3 off v) (.regWr off v)
  | bufRd (sp : Space) (off : BitVec 20) (data : BitVec 64) : TxnWordOf (txnWord 2#2 sp.toId off data) (.bufRd sp off)
  | bufWr (sp : Space) (off : BitVec 20) (v : BitVec 64) : TxnWordOf (txnWord 3#2 sp.toId off v) (.bufWr sp off v)

theorem decodeTxn_of_txnWordOf {w : BitVec 96} {i : Instr} (h : TxnWordOf w i) : decodeTxn w = .ok i := by
  cases h <;> simp [decodeTxn]

theorem txnWordOf_of_decodeTxn {w : BitVec 96} {i : Instr} (h : decodeTxn w = .ok i) : TxnWordOf w i := by
  unfold decodeTxn at h
  dsimp only at h
  split at h
  · cases h
  next hreserved =>
  obtain ⟨hlow, hhigh⟩ := not_or.mp hreserved
  rw [← txnWord_of_fields (not_not.mp hlow) (not_not.mp hhigh)]
  split at h
  · next hkind =>
    split at h <;> cases h
    next hspace => rw [hkind, hspace]; exact .regRd _ _
  split at h
  · next hkind =>
    split at h <;> cases h
    next hspace => rw [hkind, hspace]; exact .regWr _ _
  next hne0 hne1 =>
  split at h
  · cases h
  next sp hsp =>
  rw [← Space.toId_of_ofId hsp]
  split at h <;> cases h
  · next hkind => rw [hkind]; exact .bufRd _ _ _
  · next hne2 =>
    have hkind : w.extractLsb' 0 2 = 3#2 := by bv_omega
    rw [hkind]; exact .bufWr _ _ _

/-- Settles O2: the words that decode are the encoder's, up to a read's DATA. -/
theorem transactionWordsAreUnique : Obligations.TransactionWordsAreUnique := by
  intro w i h
  cases txnWordOf_of_decodeTxn h with
  | regRd off data => exact .inr ⟨.inl ⟨off, rfl⟩, by rw [encode, zero_append_txnWord]⟩
  | regWr off v => exact .inl ⟨.inl ⟨off, v, rfl⟩, rfl⟩
  | bufRd sp off data => exact .inr ⟨.inr ⟨sp, off, rfl⟩, by rw [encode, zero_append_txnWord]⟩
  | bufWr sp off v => exact .inl ⟨.inr ⟨sp, off, v, rfl⟩, rfl⟩

/-! ## Payload groups (R74, R79) -/

theorem append_bytes16 (v : BitVec 16) : v.extractLsb' 8 8 ++ v.extractLsb' 0 8 = v := by
  apply BitVec.eq_of_toNat_eq
  simp only [toNat_append_eq_add, toNat_extractLsb'_eq_div_mod]
  omega

theorem append_bytes24 (v : BitVec 24) : v.extractLsb' 16 8 ++ v.extractLsb' 8 8 ++ v.extractLsb' 0 8 = v := by
  apply BitVec.eq_of_toNat_eq
  simp only [toNat_append_eq_add, toNat_extractLsb'_eq_div_mod]
  omega

theorem append_bytes32 (v : BitVec 32) :
    v.extractLsb' 24 8 ++ v.extractLsb' 16 8 ++ v.extractLsb' 8 8 ++ v.extractLsb' 0 8 = v := by
  apply BitVec.eq_of_toNat_eq
  simp only [toNat_append_eq_add, toNat_extractLsb'_eq_div_mod]
  omega

theorem decodeGroup_iqCopy (i q : BitVec 24) : decodeGroup .iqCopy (bytes24 i ++ bytes24 q) = .ok (.iqCopy i q) := by
  simp only [bytes24, List.cons_append, List.nil_append, decodeGroup, append_bytes24]

theorem decodeGroup_iqSkip (i q : BitVec 24) : decodeGroup .iqSkip (bytes24 i ++ bytes24 q) = .ok (.iqSkip i q) := by
  simp only [bytes24, List.cons_append, List.nil_append, decodeGroup, append_bytes24]

theorem decodeGroup_micCopy (m : BitVec 16) : decodeGroup .micCopy (bytes16 m) = .ok (.micCopy m) := by
  simp only [bytes16, decodeGroup, append_bytes16]

theorem decodeGroup_micSkip (m : BitVec 16) : decodeGroup .micSkip (bytes16 m) = .ok (.micSkip m) := by
  simp only [bytes16, decodeGroup, append_bytes16]

theorem decodeGroup_pad (p : BitVec 32) : decodeGroup .pad (bytes32 p) = .ok (.pad p) := by
  simp only [bytes32, decodeGroup, append_bytes32]

/-! ## Command words (R81) -/

/-- A word that is none of the five is ILLEGAL. -/
theorem decodeCommand_illegal {w : BitVec 64} (h : isCommandWord w = false) : decodeCommand w = .illegal w := by
  simp only [isCommandWord, Bool.or_eq_false_iff, beq_eq_false_iff_ne] at h
  obtain ⟨⟨⟨⟨hnop, hdecode⟩, hcvtIn⟩, hcvtOut⟩, hreset⟩ := h
  rw [decodeCommand, if_neg hnop, if_neg hdecode, if_neg hcvtIn, if_neg hcvtOut, if_neg hreset]

/-- The five command words are 0 to 3 and 0xF. -/
theorem isCommandWord_eq_false {w : BitVec 64} (h : 16 ≤ w.toNat ∨ 4 ≤ w.toNat ∧ w.toNat ≤ 0xE) :
    isCommandWord w = false := by
  simp only [isCommandWord, Bool.or_eq_false_iff, beq_eq_false_iff_ne]
  bv_omega

/-- Settles O1: each kind of instruction is read back from the fields that the encoder puts together. -/
theorem decodeEncodeRoundTrip : Obligations.DecodeEncodeRoundTrip := by
  intro maxB i hwf
  cases i with
  | nop => rfl
  | decode => rfl
  | cvtIn => rfl
  | cvtOut => rfl
  | reset => rfl
  | illegal w => exact congrArg Except.ok (decodeCommand_illegal (by simpa [Instr.wellFormed] using hwf))
  | regRd off => exact decodeTxn_of_txnWordOf (.regRd off 0#64)
  | regWr off v => exact decodeTxn_of_txnWordOf (.regWr off v)
  | bufRd sp off => exact decodeTxn_of_txnWordOf (.bufRd sp off 0#64)
  | bufWr sp off data => exact decodeTxn_of_txnWordOf (.bufWr sp off data)
  | iqCopy i q => exact decodeGroup_iqCopy i q
  | iqSkip i q => exact decodeGroup_iqSkip i q
  | micCopy m => exact decodeGroup_micCopy m
  | micSkip m => exact decodeGroup_micSkip m
  | pad p => exact decodeGroup_pad p

/-- Settles O4: the eight words, evaluated. -/
theorem writtenOutWordsDecode : Obligations.WrittenOutWordsDecode := by
  unfold Obligations.WrittenOutWordsDecode
  decide

/-- Settles O3: the words at and beyond 16 and from 4 to 0xE are none of the five. -/
theorem commandWordsMatchInFull : Obligations.CommandWordsMatchInFull := by
  refine ⟨rfl, rfl, rfl, rfl, rfl, fun w hw => ⟨?_, fun s hclear => ?_⟩⟩
  · exact decodeCommand_illegal (isCommandWord_eq_false hw)
  · simp only [Machine.exec, Machine.execIllegal, Machine.unlessFaulted_clear _ hclear]
    rfl

end Sys2Proof
end

section
/-! # Which transactions a step refuses (30_encoding.md R82, 20_memory.md R60, R63)

A word is refused by the decoder, on its kind, its space or a reserved bit, or by the instruction it stands for, on its
offset. The first is read off the decoder's rejections; the second is the instruction not being well formed. -/

namespace Sys2Proof.Machine

/-! ## The refused words, by their fields as numbers -/

/-- An offset at or beyond the size of the buffer with a space id (20_memory.md R50, R63). -/
def beyondSpace (maxB space off : Nat) : Prop :=
  (space = 1 ∧ 1032 ≤ off) ∨ (space = 2 ∧ 756 ≤ off) ∨ (space = 3 ∧ 252 ≤ off) ∨ (space = 4 ∧ 6 * maxB ≤ off) ∨
    (space = 5 ∧ 2 * maxB ≤ off) ∨ (space = 6 ∧ 2 * maxB ≤ off) ∨ (space = 7 ∧ 4 * maxB ≤ off)

/-- A word that is refused (R82), for a MAX_BLOCK_LEN of `maxB`. -/
def refusedWord (maxB : Nat) (w : BitVec 96) : Prop :=
  let kind := w.toNat % 4
  let space := w.toNat / 4 % 8
  let off := w.toNat / 256 % 2 ^ 20
  w.toNat / 32 % 8 ≠ 0 ∨ w.toNat / 2 ^ 28 % 16 ≠ 0 ∨ (kind < 2 ∧ (space ≠ 0 ∨ off % 8 ≠ 0 ∨ 0x78 < off)) ∨
    (2 ≤ kind ∧ (space = 0 ∨ beyondSpace maxB space off))

theorem beyondSpace_toId (maxB : Nat) (sp : Space) (off : Nat) :
    beyondSpace maxB sp.toId.toNat off ↔ sp.size maxB ≤ off := by
  cases sp <;> simp [beyondSpace, Space.toId, Space.size, frameBytes, iqOutBytes, micOutBytes]

theorem toId_toNat_ne_zero (sp : Space) : sp.toId.toNat ≠ 0 := by cases sp <;> decide

/-- Of a word with zero reserved bits, the kind decides which checks remain. -/
theorem refusedWord_txnWord (maxB : Nat) (kind : BitVec 2) (space : BitVec 3) (off : BitVec 20) (data : BitVec 64) :
    refusedWord maxB (txnWord kind space off data) ↔
      (kind.toNat < 2 ∧ (space.toNat ≠ 0 ∨ off.toNat % 8 ≠ 0 ∨ 0x78 < off.toNat)) ∨
      (2 ≤ kind.toNat ∧ (space.toNat = 0 ∨ beyondSpace maxB space.toNat off.toNat)) := by
  have hkind : (txnWord kind space off data).toNat % 4 = kind.toNat := by rw [txnWord_toNat]; omega
  have hspace : (txnWord kind space off data).toNat / 4 % 8 = space.toNat := by rw [txnWord_toNat]; omega
  have hlow : (txnWord kind space off data).toNat / 32 % 8 = 0 := by rw [txnWord_toNat]; omega
  have hoff : (txnWord kind space off data).toNat / 256 % 2 ^ 20 = off.toNat := by rw [txnWord_toNat]; omega
  have hhigh : (txnWord kind space off data).toNat / 2 ^ 28 % 16 = 0 := by rw [txnWord_toNat]; omega
  simp only [refusedWord, hkind, hspace, hlow, hoff, hhigh, ne_eq, not_true_eq_false, false_or]

/-- A word that stands for a transaction is refused where the transaction is not well formed. -/
theorem refusedWord_iff {w : BitVec 96} {i : Instr} (h : TxnWordOf w i) (maxB : Nat) :
    refusedWord maxB w ↔ i.wellFormed maxB = false := by
  cases h with
  | regRd off data | regWr off data =>
    simp only [refusedWord_txnWord, Instr.wellFormed, regOffsetOk, Bool.and_eq_false_iff, decide_eq_false_iff_not]
    bv_omega
  | bufRd sp off data | bufWr sp off data =>
    simp [refusedWord_txnWord, Instr.wellFormed, toId_toNat_ne_zero, beyondSpace_toId]

theorem eq_zero_of_ofId_eq_none {b : BitVec 3} (h : Space.ofId b = none) : b = 0#3 := by
  revert b; decide

/-- Each of the decoder's rejections is a case of R82. -/
theorem refusedWord_of_decodeTxn {w : BitVec 96} {e : DecodeError} (h : decodeTxn w = .error e) (maxB : Nat) :
    refusedWord maxB w := by
  by_cases hreserved : w.extractLsb' 5 3 ≠ 0#3 ∨ w.extractLsb' 28 4 ≠ 0#4
  · simp only [ne_eq, ← BitVec.toNat_inj, toNat_extractLsb'_eq_div_mod, BitVec.toNat_ofNat] at hreserved
    unfold refusedWord
    omega
  obtain ⟨hlow, hhigh⟩ := not_or.mp hreserved
  rw [← txnWord_of_fields (not_not.mp hlow) (not_not.mp hhigh), refusedWord_txnWord]
  simp only [decodeTxn, if_neg hreserved] at h
  split at h
  · split at h
    · cases h
    · bv_omega
  split at h
  · split at h
    · cases h
    · bv_omega
  split at h
  · next hspace =>
    have := eq_zero_of_ofId_eq_none hspace
    bv_omega
  · split at h <;> cases h

/-! ## The step -/

/-- An ill-formed transaction is refused, on its offset. -/
theorem exec_refused {i : Instr} (hi : IsTxn i) {s : State} (h : i.wellFormed s.config.maxBlockLen = false) :
    ∃ r, exec i s = .refused r := by
  cases hi with
  | regRd off | regWr off v =>
    have hoff : regAt off = none := if_neg (Bool.not_eq_true _ ▸ h)
    simp only [exec, execRegRd, execRegWr, hoff]
    exact ⟨_, rfl⟩
  | bufRd sp off | bufWr sp off v => exact ⟨_, if_neg (of_decide_eq_false h)⟩

/-- Settles O7: a word that decodes is refused with the ill-formed transaction it stands for, and every other word is
refused by the decoder. -/
theorem refusedTransactions : Obligations.RefusedTransactions := by
  intro s w rest hwalk hrst hin
  change (refusedWord s.config.maxBlockLen w → _) ∧ (¬refusedWord s.config.maxBlockLen w → _)
  cases hd : decodeTxn w with
  | error e =>
    have hstep : step s = .refused (.malformed e) := by simp [step, takeInput, takeTxn, hwalk, hrst, hin, hd]
    exact ⟨fun _ => ⟨_, hstep⟩, fun hgood => absurd (refusedWord_of_decodeTxn hd _) hgood⟩
  | ok i =>
    rw [step_txn hwalk hrst hin hd, refusedWord_iff (txnWordOf_of_decodeTxn hd), Bool.not_eq_false]
    have hi := isTxn_of_decodeTxn hd
    exact ⟨exec_refused hi (s := s.consume rest), exec_taken hi (s := s.consume rest)⟩

end Sys2Proof.Machine
end

section
/-! # Payload groups at their position (30_encoding.md R78, R79, 40_decode.md R112; log 8, log 9)

A payload group is fetched from the cursor, runs where its position selects its kind, and stops at an access out of
bounds; and an instruction placed by `withFetchWord` stands where the next step takes it. -/

namespace Sys2Proof.Machine

/-! ## The group under the cursor -/

/-- As many bytes as a kind of group has are a group of that kind. -/
theorem exists_decodeGroup (k : GroupKind) {bs : List Byte} (h : bs.length = k.bytes) :
    ∃ i, decodeGroup k bs = .ok i := by
  cases k with
  | iqCopy | iqSkip =>
    match bs, h with
    | [_, _, _, _, _, _], _ => exact ⟨_, rfl⟩
  | micCopy | micSkip =>
    match bs, h with
    | [_, _], _ => exact ⟨_, rfl⟩
  | pad =>
    match bs, h with
    | [_, _, _, _], _ => exact ⟨_, rfl⟩

theorem source_eq (w : Walk) : w.source = 16 + 512 * w.sf + w.cur := by
  simp only [Walk.source, payloadBase, ccBase, syncBase, headerBytes, subframeBytes, syncBytes, ccBytes]
  omega

theorem fetchGroup_of_group {s : State} {w : Walk} {k : GroupKind} (hk : (s.walkState w).group = some k) :
    fetchGroup w s = some (decodeGroup k (s.frameIn.readSeq w.source k.bytes)) := by
  simp only [fetchGroup, hk, groupBytes]

theorem step_walk {s : State} {w : Walk} (hwalk : s.walk = some w) : step s = stepWalk w s := by
  simp only [step, hwalk]

/-- A step of a walk is exec of what the bytes under the cursor decode to. -/
theorem step_of_decodeGroup {s : State} {w : Walk} {k : GroupKind} {i : Instr} (hwalk : s.walk = some w)
    (hk : (s.walkState w).group = some k) (hi : decodeGroup k (s.frameIn.readSeq w.source k.bytes) = .ok i) :
    step s = exec i s := by
  simp only [step_walk hwalk, stepWalk, fetchGroup_of_group hk, hi]

/-- Settles O6: the bytes under the cursor are as many as the selected kind has, so they decode. -/
theorem stepRunsPayloadGroup : Obligations.StepRunsPayloadGroup := by
  intro s w hwalk
  refine ⟨fun k hk => ?_, fun hk => ?_⟩
  · rw [← source_eq]
    obtain ⟨i, hi⟩ := exists_decodeGroup k (Memory.readSeq_length s.frameIn w.source k.bytes)
    exact ⟨i, hi, step_of_decodeGroup hwalk hk hi⟩
  · simp only [step_walk hwalk, stepWalk, fetchGroup, hk]

/-! ## Where a group stops -/

/-- The five payload groups. -/
inductive IsGroup : Instr → Prop
  | iqCopy (i q : BitVec 24) : IsGroup (.iqCopy i q)
  | iqSkip (i q : BitVec 24) : IsGroup (.iqSkip i q)
  | micCopy (m : BitVec 16) : IsGroup (.micCopy m)
  | micSkip (m : BitVec 16) : IsGroup (.micSkip m)
  | pad (p : BitVec 32) : IsGroup (.pad p)

/-- A payload group by itself has its effect where its kind is selected. -/
theorem IsGroup.exec_eq {g : Instr} (h : IsGroup g) (s : State) :
    exec g s = whenSelected g.groupKind s fun w => performGroup g w s := by
  cases h <;> rfl

theorem isGroup_of_mem {i q : BitVec 24} {m : BitVec 16} {p : BitVec 32} {g : Instr}
    (h : g ∈ [Instr.iqCopy i q, .iqSkip i q, .micCopy m, .micSkip m, .pad p]) : IsGroup g := by
  simp only [List.mem_cons, List.not_mem_nil, or_false] at h
  rcases h with rfl | rfl | rfl | rfl | rfl
  · exact .iqCopy i q
  · exact .iqSkip i q
  · exact .micCopy m
  · exact .micSkip m
  · exact .pad p

theorem whenSelected_none {k : GroupKind} {s : State} (f : Walk → State) (hwalk : s.walk = none) :
    whenSelected k s f = .refused .noDecodeRunning := by
  simp only [whenSelected, hwalk]

theorem whenSelected_ne {k : GroupKind} {s : State} {w : Walk} (f : Walk → State) (hwalk : s.walk = some w)
    (hk : (s.walkState w).group ≠ some k) : whenSelected k s f = .refused .groupNotSelected := by
  simp only [whenSelected, hwalk, if_neg hk]

/-- Bytes beyond the declared length, or beyond the frame, cannot be read (R112). -/
theorem frameReadOk_source (len : Nat) (w : Walk) (n : Nat) : frameReadOk len w.source n = true ↔
    16 + 512 * w.sf + w.cur + n ≤ len ∧ 16 + 512 * w.sf + w.cur + n ≤ 1032 := by
  simp only [frameReadOk, source_eq, frameBytes, Bool.and_eq_true, decide_eq_true_eq]

theorem iqCopyOk_iff (len : Nat) (w : Walk) : iqCopyOk len w = true ↔
    (16 + 512 * w.sf + w.cur + 6 ≤ len ∧ 16 + 512 * w.sf + w.cur + 6 ≤ 1032) ∧ w.iqWp + 6 ≤ 756 := by
  rw [iqCopyOk, Bool.and_eq_true, frameReadOk_source, decide_eq_true_eq, iqOutBytes]

theorem micCopyOk_iff (len : Nat) (w : Walk) : micCopyOk len w = true ↔
    (16 + 512 * w.sf + w.cur + 2 ≤ len ∧ 16 + 512 * w.sf + w.cur + 2 ≤ 1032) ∧ w.micWp + 2 ≤ 252 := by
  rw [micCopyOk, Bool.and_eq_true, frameReadOk_source, decide_eq_true_eq, micOutBytes]

/-- Settles O34: the two refusals are those of every payload group, and the bounds those of each copy. -/
theorem groupsStopOutsideTheirPosition : Obligations.GroupsStopOutsideTheirPosition := by
  intro s i q m p
  refine ⟨fun hwalk g hg => ?_, fun w hwalk g hg hk => ?_, fun w hwalk hk hbad => ?_, fun w hwalk hk hbad => ?_⟩
  · rw [(isGroup_of_mem hg).exec_eq, whenSelected_none _ hwalk]
  · rw [(isGroup_of_mem hg).exec_eq, whenSelected_ne _ hwalk hk]
  · have hout : ¬iqCopyOk s.declaredLen w = true := by rw [iqCopyOk_iff, State.declaredLen]; omega
    rw [exec, execIqCopy, whenSelected_eq _ hwalk hk, iqCopyGroup, if_neg hout]
    rfl
  · have hout : ¬micCopyOk s.declaredLen w = true := by rw [micCopyOk_iff, State.declaredLen]; omega
    rw [exec, execMicCopy, whenSelected_eq _ hwalk hk, micCopyGroup, if_neg hout]
    rfl

/-! ## Placed instructions -/

/-- A transaction placed at the head of the inputs is the one that the step takes. -/
theorem step_placeTxn {w : BitVec 96} {i : Instr} (s : State) (hi : decodeTxn w = .ok i) :
    step (placeTxn w s) = exec i { s with rstI := false, walk := none, response := none } :=
  step_txn (s := placeTxn w s) rfl rfl rfl hi

/-- A write to CMD runs the command (R154). -/
theorem exec_regWr_cmd (v : BitVec 64) (s : State) : exec (.regWr 0x00#20 v) s = exec (decodeCommand v) s := by
  change command v s = _
  rcases command_cases v s with ⟨rfl, h⟩ | ⟨rfl, h⟩ | ⟨rfl, h⟩ | ⟨rfl, h⟩ | ⟨rfl, h⟩ | ⟨hv, h⟩ <;> rw [h]
  · rfl
  · rfl
  · rfl
  · rfl
  · rfl
  · rw [decodeCommand_illegal hv]
    rfl

/-- A round whose copy is in bounds raises nothing. -/
theorem walkStep_fault {s : State} {w : Walk} (hiq : s.walkState w = .iq → iqCopyOk s.declaredLen w = true)
    (hmic : s.walkState w = .mic → micCopyOk s.declaredLen w = true) : (walkStep w s).fault = s.fault := by
  rw [walkStep_eq]
  cases hstate : s.walkState w with
  | iq => simp only [if_pos (hiq hstate)]
  | mic => simp only [if_pos (hmic hstate)]
  | siq _ | sm _ | pad => rfl
  | done => exact endSubframe_fault w s

/-- The next step from `u` is exec of `i`, which answers a next state with FAULT as it was. -/
def runsNext (i : Instr) (u : State) : Prop := step u = exec i u ∧ ∃ t, exec i u = .next t ∧ t.fault = u.fault

/-- In a DECODE of a whole frame, a group's bytes written at the cursor are the group that runs next, where its accesses
are in bounds. -/
theorem runsNext_of_writeSeq (cfg : BitVec 7) {u : State} {w : Walk} {k : GroupKind} {i : Instr} {bs : List Byte}
    {m : Memory 8} (hcfg : u.decCfg = cfg) (hlen : u.frameLen = 1032#11) (hwalk : u.walk = some w)
    (hk : (classify (cfg.extractLsb' 0 2).toNat (cfg.extractLsb' 2 2).toNat w).group = some k)
    (hok : iqCopyOk frameBytes w = true ∧ micCopyOk frameBytes w = true) (hm : m.wf = true)
    (hframe : u.frameIn = m.writeSeq w.source bs) (hbs : bs.length = k.bytes) (hi : decodeGroup k bs = .ok i) :
    runsNext i u := by
  have hdeclared : u.declaredLen = frameBytes := by rw [State.declaredLen, hlen]; rfl
  obtain ⟨hiq, hmic⟩ := hdeclared ▸ hok
  have hk' : (u.walkState w).group = some k := by rw [State.walkState, State.rxCount, State.rxSel, hcfg, hk]
  have hread : decodeGroup k (u.frameIn.readSeq w.source k.bytes) = .ok i := by
    rw [hframe, ← hbs, Memory.readSeq_writeSeq_same bs m w.source hm, hi]
  have hstep := step_of_decodeGroup hwalk hk' hread
  exact ⟨hstep, walkStep w u, hstep ▸ step_eq_walkStep hwalk, walkStep_fault (fun _ => hiq) (fun _ => hmic)⟩

theorem runsNext_placeIqGroup {s : State} (hm : s.frameIn.wf = true) (i q : BitVec 24) :
    runsNext (.iqCopy i q) (placeIqGroup (bytes24 i ++ bytes24 q) s) :=
  runsNext_of_writeSeq 0x01#7 rfl rfl rfl (by decide) (by decide) hm rfl rfl (decodeGroup_iqCopy i q)

theorem runsNext_placeMicGroup {s : State} (hm : s.frameIn.wf = true) (m : BitVec 16) :
    runsNext (.micCopy m) (placeMicGroup (bytes16 m) s) :=
  runsNext_of_writeSeq 0x01#7 rfl rfl rfl (by decide) (by decide) hm rfl rfl (decodeGroup_micCopy m)

theorem runsNext_placePadding {s : State} (hm : s.frameIn.wf = true) (p : BitVec 32) :
    runsNext (.pad p) (placePadding (bytes32 p) s) :=
  runsNext_of_writeSeq 0x03#7 rfl rfl rfl (by decide) (by decide) hm rfl rfl (decodeGroup_pad p)

/-- Settles O10: a transaction is the head of the inputs, a command the write to CMD, and a group's bytes are under the
cursor of a walk whose accesses are in bounds. -/
theorem placedWordRunsNext : Obligations.PlacedWordRunsNext := by
  intro s w i v
  refine ⟨fun hi => ?_, ?_, fun hm g p hp => ?_⟩
  · have hplace : s.withFetchWord 96 w.toNat = placeTxn w s := by simp [State.withFetchWord]
    rw [hplace, step_placeTxn s hi]
  · have hplace : s.withFetchWord 64 v.toNat = placeTxn (txnWord 1#2 0#3 0x00#20 v) s := by
      simp [State.withFetchWord]
    rw [hplace, step_placeTxn s (decodeTxn_of_txnWordOf (.regWr 0x00#20 v)), exec_regWr_cmd]
  · simp only [List.mem_cons, List.not_mem_nil, or_false] at hp
    rcases hp with rfl | rfl | rfl
    · obtain ⟨hstep, hnext⟩ := runsNext_placeIqGroup hm (BitVec.ofNat 24 (g / 2 ^ 24)) (BitVec.ofNat 24 g)
      exact ⟨congrArg Except.toOption (decodeGroup_iqCopy _ _), hstep, hnext, rfl⟩
    · obtain ⟨hstep, hnext⟩ := runsNext_placeMicGroup hm (BitVec.ofNat 16 g)
      exact ⟨congrArg Except.toOption (decodeGroup_micCopy _), hstep, hnext, rfl⟩
    · obtain ⟨hstep, hnext⟩ := runsNext_placePadding hm (BitVec.ofNat 32 g)
      exact ⟨congrArg Except.toOption (decodeGroup_pad _), hstep, hnext, rfl⟩

end Sys2Proof.Machine
end

section
/-! # What each payload group does at its position (40_decode.md R105 to R110, R118)

A position selects one state, and so one kind of group, by its period, its slot and its phase. A copy in bounds stores
the group's bytes and moves the registers; a skipped group and the padding move the registers alone. -/

namespace Sys2Proof.Machine

open Sys2Proof.Claims

/-! ## The state that a position selects (R105) -/

section Position

variable {n sel : Nat} {w : Walk}

theorem classify_pad (hper : w.per = periods n) (hcur : w.cur < payloadBytes) : classify n sel w = .pad := by
  rw [classify, if_pos hper, if_pos hcur]

theorem classify_done (hper : w.per = periods n) (hcur : payloadBytes ≤ w.cur) : classify n sel w = .done := by
  rw [classify, if_pos hper, if_neg (Nat.not_lt.mpr hcur)]

theorem classify_iq (hper : w.per ≠ periods n) (hslot : w.slot < n) (hsel : w.slot = sel) :
    classify n sel w = .iq := by
  rw [classify, if_neg hper, if_pos hslot, if_pos hsel]

/-- The other receivers are numbered without the selected one. -/
theorem classify_siq (hper : w.per ≠ periods n) (hslot : w.slot < n) (hsel : w.slot ≠ sel) :
    classify n sel w = .siq (if w.slot < sel then w.slot + 1 else w.slot) := by
  rw [classify, if_neg hper, if_pos hslot, if_neg hsel]
  split <;> rfl

theorem classify_mic (hper : w.per ≠ periods n) (hslot : n ≤ w.slot) (hphase : w.mphase = 0) :
    classify n sel w = .mic := by
  rw [classify, if_neg hper, if_neg (Nat.not_lt.mpr hslot), if_pos hphase]

theorem classify_sm (hper : w.per ≠ periods n) (hslot : n ≤ w.slot) (hphase : w.mphase ≠ 0) :
    classify n sel w = .sm w.mphase := by
  rw [classify, if_neg hper, if_neg (Nat.not_lt.mpr hslot), if_neg hphase]

end Position

/-- Settles O33: a slot below N is the selected receiver's or another's, and slot N is the microphone's. -/
theorem periodStateTable : Obligations.PeriodStateTable := by
  intro w n sel hn hn3 hsel hper
  refine ⟨?slots, classify_mic hper (Nat.le_refl n) rfl,
    fun j hj => classify_sm hper (Nat.le_refl n) (Nat.one_le_iff_ne_zero.mp hj)⟩
  have hslot : ∀ slot, slot < n → classify n sel { w with slot := slot } =
      if slot = sel then .iq else .siq (if slot < sel then slot + 1 else slot) := by
    intro slot hlt
    split
    · next heq => exact classify_iq hper hlt heq
    · next hne => exact classify_siq hper hlt hne
  interval_cases n <;> interval_cases sel <;> simp [hslot]

/-! ## Groups by themselves (R106 to R110) -/

/-- Settles O29: the slot is another receiver's, so the group is an IQ_SKIP. -/
theorem iqSkipAdvances : Obligations.IqSkipAdvances := by
  intro s w i q hwalk hper hslot hne
  rw [← rxCount_eq_cfgN] at hslot hper
  rw [← rxSel_eq_cfgSel] at hne
  exact whenSelected_eq _ hwalk (congrArg WalkState.group (classify_siq hper hslot hne))

/-- Settles O31: slot N at another phase than 0 is a MIC_SKIP's. -/
theorem micSkipAdvances : Obligations.MicSkipAdvances := by
  intro s w m hwalk hper hslot hphase
  rw [← rxCount_eq_cfgN] at hslot hper
  rw [← decim_eq_two_pow]
  exact whenSelected_eq _ hwalk (congrArg WalkState.group (classify_sm hper hslot hphase))

/-- Settles O32: past the last period and before the end of the payload stands the padding. -/
theorem padSkipsToEnd : Obligations.PadSkipsToEnd := by
  intro s w p hwalk hper hcur
  rw [← rxCount_eq_cfgN] at hper
  exact whenSelected_eq _ hwalk (congrArg WalkState.group (classify_pad hper hcur))

/-- Settles O27: the position is IQ's and its accesses are in bounds, so the group's bytes are stored. -/
theorem iqCopyStoresGroup : Obligations.IqCopyStoresGroup := by
  intro s w i q hwalk hper hslot hsel hlen hframe hroom hwf
  rw [← rxCount_eq_cfgN] at hslot hper
  rw [← rxSel_eq_cfgSel] at hsel
  have hok : iqCopyOk s.declaredLen w = true := (iqCopyOk_iff _ w).mpr ⟨⟨hlen, hframe⟩, hroom⟩
  have hexec : exec (.iqCopy i q) s = .next (iqCopyGroup i q w s) :=
    whenSelected_eq _ hwalk (congrArg WalkState.group (classify_iq hper hslot hsel))
  rw [hexec, iqCopyGroup, if_pos hok]
  exact ⟨_, rfl, rfl, Memory.readSeq_writeSeq_same (bytes24 i ++ bytes24 q) _ _ hwf,
    fun a ha => Memory.read_writeSeq_other (bytes24 i ++ bytes24 q) _ _ a ha⟩

/-- Settles O30: the position is M's and its accesses are in bounds, so the group's bytes are stored. -/
theorem micCopyStoresGroup : Obligations.MicCopyStoresGroup := by
  intro s w m hwalk hper hslot hphase hlen hframe hroom hwf
  rw [← rxCount_eq_cfgN] at hslot hper
  rw [← decim_eq_two_pow]
  have hok : micCopyOk s.declaredLen w = true := (micCopyOk_iff _ w).mpr ⟨⟨hlen, hframe⟩, hroom⟩
  have hexec : exec (.micCopy m) s = .next (micCopyGroup m w s) :=
    whenSelected_eq _ hwalk (congrArg WalkState.group (classify_mic hper hslot hphase))
  rw [hexec, micCopyGroup, if_pos hok]
  exact ⟨_, rfl, rfl, Memory.readSeq_writeSeq_same (bytes16 m) _ _ hwf,
    fun a ha => Memory.read_writeSeq_other (bytes16 m) _ _ a ha⟩

/-! ## The groups of FRAME_IN (R106, R108) -/

/-- A copied sequence reads as the sequence it was copied from. -/
theorem Memory.readSeq_copy {w : Nat} (m out : Memory w) (a b n : Nat) (h : out.wf = true) :
    (out.writeSeq a (m.readSeq b n)).readSeq a n = m.readSeq b n := by
  simpa only [Memory.readSeq_length] using Memory.readSeq_writeSeq_same (m.readSeq b n) out a h

/-- Outside a copied sequence everything reads as before. -/
theorem Memory.read_copy_other {w : Nat} (m out : Memory w) {a b n c : Nat} (h : c < a ∨ a + n ≤ c) :
    (out.writeSeq a (m.readSeq b n)).read c = out.read c :=
  Memory.read_writeSeq_other _ out a c (by rwa [Memory.readSeq_length])

/-- Settles O28: a step is a round of the walk, and a round in IQ or M stores what it reads at the cursor. -/
theorem walkCopiesFromFrame : Obligations.WalkCopiesFromFrame := by
  intro s w hwalk hper hiqWf hmicWf
  rw [← rxCount_eq_cfgN] at hper ⊢
  rw [← rxSel_eq_cfgSel, ← decim_eq_two_pow, step_eq_walkStep hwalk, walkStep_eq, State.walkState]
  refine ⟨fun hslot hsel hlen hframe hroom => ?iq, fun hslot hphase hlen hframe hroom => ?mic⟩
  case iq =>
    have hok : iqCopyOk s.declaredLen w = true := (iqCopyOk_iff _ w).mpr ⟨⟨hlen, hframe⟩, hroom⟩
    rw [← source_eq]
    simp only [classify_iq hper hslot hsel, if_pos hok]
    exact ⟨_, rfl, Memory.readSeq_copy _ _ _ _ _ hiqWf, fun a ha => Memory.read_copy_other _ _ ha, rfl⟩
  case mic =>
    have hok : micCopyOk s.declaredLen w = true := (micCopyOk_iff _ w).mpr ⟨⟨hlen, hframe⟩, hroom⟩
    rw [← source_eq]
    simp only [classify_mic hper hslot hphase, if_pos hok]
    refine ⟨_, rfl, Memory.readSeq_copy _ _ _ _ _ hmicWf, fun a ha => Memory.read_copy_other _ _ ha, ?_⟩
    simp only [Walk.afterMicCopy, hphase]

end Sys2Proof.Machine
end

section
/-! # What DECODE checks, and the counts it leaves (40_decode.md R101, R102, R112, R116)

The first check that fails gives the code. The bounds check comes last and passes wherever R101's checks have, so
GEOMETRY is not among the codes; and what passes every check is a DECODE that completes. -/

namespace Sys2Proof.Machine

open Sys2Proof.Claims

/-! ## The checks in their order (R172) -/

theorem syncOk_iff (m : Memory 8) : syncOk m = true ↔ syncInPlace m := by
  simp [syncOk, syncInPlace, Memory.readSeq, syncBase, headerBytes, subframeBytes, and_assoc]

/-- A legal rate is none of those that R101 refuses. -/
theorem not_cfgRate_of_legal {rate : Nat} {m : MicDecim384} (h : rate < 3 ∨ rate = 3 ∧ m = .eight) :
    ¬(3 < rate ∨ rate = 3 ∧ m = .refuse) := by
  cases m <;> simp at h ⊢ <;> omega

theorem decodeFault_of_validate {s : State} {c : FaultCode} (h : validate s = some c) : decodeFault s = some c := by
  rw [decodeFault, h]

/-- The bounds check never fails where it is reached. -/
theorem decodeFault_of_validate_none {s : State} (h : validate s = none) : decodeFault s = checkSync s := by
  have hbounds : boundsCheck s = none := if_pos (walkInBounds_start h)
  rw [decodeFault, h, hbounds]
  cases checkSync s <;> rfl

/-- A check that fails is FAULT's alone (60_exceptions.md R171). -/
theorem exec_decode_of_fault {s : State} {c : FaultCode} (hclear : s.fault = 0#8) (h : decodeFault s = some c) :
    exec .decode s = .next { s with fault := c.code } := by
  simp only [exec, execDecode, unlessFaulted_clear _ hclear, h, raiseOr_some, raiseFault]

/-- Settles O19: `validate`'s four checks on DEC_CFG's fields and FRAME_LEN, then the sync bytes, then a DECODE that
completes. -/
theorem decodeFaultsInOrder : Obligations.DecodeFaultsInOrder := by
  intro s hclear
  have raises : ∀ c, validate s = some c → exec .decode s = .next { s with fault := c.code } :=
    fun _ h => exec_decode_of_fault hclear (decodeFault_of_validate h)
  rw [← rxCount_eq_cfgN, ← rxSel_eq_cfgSel, ← rate_eq_cfgRate]
  refine ⟨fun hn => raises .cfgRxCount ?_, fun hn hsel => raises .cfgRxSel ?_,
    fun hn hsel hrate => raises .cfgRate ?_, fun hn hsel hrate hlen => raises .frameSize ?_,
    fun hlegal hstrict hsync => ?_, fun hlegal hsync => ?_⟩
  · rw [validate, if_pos hn]
  · rw [validate, if_neg (by omega), if_pos hsel]
  · rw [validate, if_neg (by omega), if_neg (by omega), if_pos hrate]
  · have hlen' : s.declaredLen ≠ frameBytes := fun h => hlen (BitVec.eq_of_toNat_eq h)
    rw [validate, if_neg (by omega), if_neg (by omega), if_neg (not_cfgRate_of_legal hrate), if_pos hlen']
  · have hcheck := decodeFault_of_validate_none (validate_of_decodeLegal hlegal)
    refine exec_decode_of_fault (c := .sync) hclear (hcheck.trans ?_)
    rw [← syncOk_iff, Bool.not_eq_true] at hsync
    rw [checkSync, hstrict, hsync]
    rfl
  · have hok := decodeFault_of_decodeLegal hlegal hsync
    exact ⟨_, exec_decode_of_decodeFault hclear hok,
      (demultiplex_completed (validate_of_decodeFault hok)).fault.trans hclear⟩

/-! ## GEOMETRY (R112) -/

theorem validate_ne_geometry (s : State) : validate s ≠ some .geometry := by
  unfold validate
  repeat' split
  all_goals nofun

theorem decodeFault_ne_geometry (s : State) : decodeFault s ≠ some .geometry := by
  cases hvalid : validate s with
  | none =>
    rw [decodeFault_of_validate_none hvalid, checkSync]
    split <;> nofun
  | some c =>
    rw [decodeFault_of_validate hvalid]
    exact hvalid ▸ validate_ne_geometry s

theorem code_eq_geometry {c : FaultCode} (h : c.code = 0x07#8) : c = .geometry := by
  revert h
  cases c <;> decide

/-- Settles O22: a DECODE that answers has raised another code, or has completed with FAULT as it was. -/
theorem geometryNeverRaised : Obligations.GeometryNeverRaised := by
  intro s
  refine ⟨fun hlegal => if_pos (walkInBounds_start (validate_of_decodeLegal hlegal)), fun hclear => ?_⟩
  cases hok : decodeFault s with
  | some c =>
    exact ⟨_, exec_decode_of_fault hclear hok,
      fun hcode => decodeFault_ne_geometry s (code_eq_geometry hcode ▸ hok)⟩
  | none =>
    refine ⟨_, exec_decode_of_decodeFault hclear hok, ?_⟩
    rw [(demultiplex_completed (validate_of_decodeFault hok)).fault, hclear]
    decide

/-! ## The counts (R116) -/

/-- The counts of two sub-frames fit their registers. -/
theorem Completed.counts_toNat {n d : Nat} {fault : BitVec 8} {t : State} (h : Completed n d fault t) (hn : 1 ≤ n)
    (hd : 0 < d) : t.iqCount.toNat = 2 * periods n ∧ t.micCount.toNat = 2 * copiedMics d (periods n) := by
  have hperiods := periods_le hn
  have hmics := copiedMics_le hd (periods n)
  rw [h.iqCount, h.micCount, BitVec.toNat_ofNat, BitVec.toNat_ofNat]
  omega

/-- A legal DECODE completes, in the words of the statements. -/
theorem exec_decode_completed {s : State} (hclear : s.fault = 0#8) (hlegal : decodeLegal s)
    (hsync : s.config.strictSync = true → syncInPlace s.frameIn) :
    exec .decode s = .next (demultiplex s) ∧ Completed (cfgN s) (2 ^ cfgRate s) 0#8 (demultiplex s) := by
  refine ⟨exec_decode_of_decodeFault hclear (decodeFault_of_decodeLegal hlegal hsync), ?_⟩
  rw [← rxCount_eq_cfgN, ← decim_eq_two_pow, ← hclear]
  exact demultiplex_completed (validate_of_decodeLegal hlegal)

/-- R116's table, a row for each receiver count and an entry for each rate. -/
theorem counts_table : ∀ rate < 4,
    (BitVec.ofNat 16 (2 * copiedMics (2 ^ rate) (periods 1)) = [126#16, 64#16, 32#16, 16#16].getD rate 0#16) ∧
    (BitVec.ofNat 16 (2 * copiedMics (2 ^ rate) (periods 2)) = [72#16, 36#16, 18#16, 10#16].getD rate 0#16) ∧
    (BitVec.ofNat 16 (2 * copiedMics (2 ^ rate) (periods 3)) = [50#16, 26#16, 14#16, 8#16].getD rate 0#16) := by
  decide

/-- Settles O21: a completed DECODE's counts are the formula's, and the table is the formula evaluated. -/
theorem decodeCounts : Obligations.DecodeCounts := by
  intro s hclear hlegal hsync
  obtain ⟨hexec, hdone⟩ := exec_decode_completed hclear hlegal hsync
  obtain ⟨hn, -, hrate, -⟩ := hlegal
  obtain ⟨hiq, hmic⟩ := hdone.counts_toNat hn (Nat.two_pow_pos _)
  obtain ⟨hone, htwo, hthree⟩ := counts_table (cfgRate s) (by omega)
  refine ⟨_, hexec, hiq, hmic, fun h => ?_, fun h => ?_, fun h => ?_⟩
  · exact ⟨by rw [hdone.iqCount, h]; rfl, by rw [hdone.micCount, h]; exact hone⟩
  · exact ⟨by rw [hdone.iqCount, h]; rfl, by rw [hdone.micCount, h]; exact htwo⟩
  · exact ⟨by rw [hdone.iqCount, h]; rfl, by rw [hdone.micCount, h]; exact hthree⟩

end Sys2Proof.Machine
end

section
/-! # What DECODE copies (40_decode.md R113 to R115)

Where a byte of IQ_OUT or MIC_OUT comes from is a function of its offset alone. Along a walk the bytes below each write
pointer are those copied bytes and the others are as before, by the groups counted so far; at the END of the second
sub-frame that is the closed form. -/

namespace Sys2Proof.Machine

open Sys2Proof.Claims

/-! ## Copies -/

section Copies

variable {w : Nat} {m out out' : Memory w} {src : Nat → Nat} {len : Nat}

theorem Memory.getElem_readSeq (m : Memory w) (a n i : Nat) (h : i < (m.readSeq a n).length) :
    (m.readSeq a n)[i] = m.read (a + i) := by
  induction n generalizing a i with
  | zero => exact absurd h (Nat.not_lt_zero i)
  | succ n ih =>
    cases i with
    | zero => rfl
    | succ i => simpa [Memory.readSeq, Nat.add_assoc, Nat.add_comm 1] using ih (a + 1) i (by simpa using h)

/-- `out'` is `out` but for its first `len` elements, which are copied from `m`: the one at `a` from `src a`. -/
def Memory.Copied (m out : Memory w) (src : Nat → Nat) (len : Nat) (out' : Memory w) : Prop :=
  ∀ a, out'.read a = if a < len then m.read (src a) else out.read a

theorem Memory.Copied.of_lt (h : m.Copied out src len out') {a : Nat} (ha : a < len) :
    out'.read a = m.read (src a) :=
  (h a).trans (if_pos ha)

theorem Memory.Copied.of_le (h : m.Copied out src len out') {a : Nat} (ha : len ≤ a) : out'.read a = out.read a :=
  (h a).trans (if_neg (Nat.not_lt.mpr ha))

theorem Memory.copied_zero (m out : Memory w) (src : Nat → Nat) : m.Copied out src 0 out := fun _ => rfl

/-- Copying `k` more elements in sequence, from where `src` says that they come from. -/
theorem Memory.Copied.append (h : m.Copied out src len out') (hwf : out'.wf = true) {k b : Nat}
    (hsrc : ∀ j < k, src (len + j) = b + j) : m.Copied out src (len + k) (out'.writeSeq len (m.readSeq b k)) := by
  intro a
  have hlength := Memory.readSeq_length m b k
  split
  · next hlt =>
    by_cases hold : a < len
    · rw [Memory.read_writeSeq_other _ _ _ _ (.inl hold), h.of_lt hold]
    · obtain ⟨j, rfl⟩ := Nat.exists_eq_add_of_le (Nat.not_lt.mp hold)
      rw [Memory.read_writeSeq_same _ _ _ j hwf (by omega), Memory.getElem_readSeq, hsrc j (by omega)]
  · next hge => rw [Memory.read_writeSeq_other _ _ _ _ (by omega), h.of_le (by omega)]

/-- Copying the same once more changes nothing. -/
theorem Memory.Copied.eq_of_copied {out'' : Memory w} (h : m.Copied out src len out')
    (h' : m.Copied out' src len out'') (hwf : out'.wf = true) (hwf' : out''.wf = true) : out'' = out' := by
  refine Memory.ext_read hwf' hwf fun a => (h' a).trans ?_
  split
  · next hlt => rw [h.of_lt hlt]
  · rfl

end Copies

/-! ## Where each byte comes from (R115) -/

/-- The byte of FRAME_IN that goes to `IQ_OUT[a]`, for `n` receivers of which `sel` is selected. -/
def iqSource (n sel a : Nat) : Nat :=
  16 + 512 * (a / 6 / periods n) + periodBytes n * (a / 6 % periods n) + 6 * sel + a % 6

/-- The byte of FRAME_IN that goes to `MIC_OUT[a]`, for `n` receivers and the decimation factor `d`. -/
def micSource (n d a : Nat) : Nat :=
  16 + 512 * (a / 2 / copiedMics d (periods n)) + periodBytes n * (d * (a / 2 % copiedMics d (periods n))) + 6 * n +
    a % 2

section Sources

variable {n sel d sf p j : Nat}

/-- The sub-frame, the group in it and the byte in the group, from the offset. -/
theorem offset_parts {b g : Nat} (hp : p < g) (hj : j < b) :
    (b * (sf * g + p) + j) / b / g = sf ∧ (b * (sf * g + p) + j) / b % g = p ∧ (b * (sf * g + p) + j) % b = j := by
  have hb : 0 < b := by omega
  have hg : 0 < g := by omega
  have hgroup : (b * (sf * g + p) + j) / b = sf * g + p := by
    rw [Nat.mul_add_div hb, Nat.div_eq_of_lt hj, Nat.add_zero]
  refine ⟨?_, ?_, by rw [Nat.mul_add_mod, Nat.mod_eq_of_lt hj]⟩
  · rw [hgroup, Nat.mul_comm, Nat.mul_add_div hg, Nat.div_eq_of_lt hp, Nat.add_zero]
  · rw [hgroup, Nat.mul_comm, Nat.mul_add_mod, Nat.mod_eq_of_lt hp]

/-- A byte of a group of the two sub-frames. -/
theorem offset_lt {b g : Nat} (hsf : sf < 2) (hp : p < g) (hj : j < b) : b * (sf * g + p) + j < b * (2 * g) := by
  have hgroups : sf * g ≤ 1 * g := Nat.mul_le_mul_right g (Nat.le_of_lt_succ hsf)
  have hgroup : b * (sf * g + p + 1) ≤ b * (2 * g) := Nat.mul_le_mul_left b (by omega)
  rw [Nat.mul_add_one] at hgroup
  omega

theorem iqSource_group (hp : p < periods n) (hj : j < 6) :
    iqSource n sel (6 * (sf * periods n + p) + j) = 16 + 512 * sf + periodBytes n * p + 6 * sel + j := by
  obtain ⟨hsf, hper, hbyte⟩ := offset_parts (sf := sf) hp hj
  rw [iqSource, hsf, hper, hbyte]

/-- The microphone groups before one that is copied, at the phase 0. -/
theorem copiedMics_of_mod_eq_zero (hd : 0 < d) (hp : p % d = 0) : copiedMics d p = p / d := by
  obtain ⟨q, rfl⟩ := Nat.dvd_of_mod_eq_zero hp
  rw [copiedMics, Nat.add_sub_assoc hd, Nat.mul_add_div hd, Nat.div_eq_of_lt (by omega), Nat.add_zero,
    Nat.mul_div_cancel_left q hd]

theorem copiedMics_lt (hd : 0 < d) {total : Nat} (hp : p < total) (hphase : p % d = 0) :
    p / d < copiedMics d total := by
  have hsucc := copiedMics_succ hd p
  have hmono := copiedMics_mono d (show p + 1 ≤ total from hp)
  rw [if_pos hphase, copiedMics_of_mod_eq_zero hd hphase] at hsucc
  omega

theorem micSource_group (hd : 0 < d) (hp : p < periods n) (hphase : p % d = 0) (hj : j < 2) :
    micSource n d (2 * (sf * copiedMics d (periods n) + p / d) + j) =
      16 + 512 * sf + periodBytes n * p + 6 * n + j := by
  obtain ⟨hsf, hper, hbyte⟩ := offset_parts (sf := sf) (copiedMics_lt hd hp hphase) hj
  rw [micSource, hsf, hper, hbyte, Nat.mul_div_cancel' (Nat.dvd_of_mod_eq_zero hphase)]

end Sources

/-! ## What a walk has copied so far -/

/-- All that a round which goes on can do to the output buffers and the write pointers: a copy at IQ's position and at
M's, and nothing elsewhere. -/
theorem walkStep_copies {u : State} {w w' : Walk} (h : (walkStep w u).walk = some w') :
    (((walkStep w u).iqOut = u.iqOut ∧ w'.iqWp = w.iqWp) ∨
      (w.per ≠ periods u.rxCount ∧ w.slot < u.rxCount ∧ w.slot = u.rxSel ∧ w'.iqWp = w.iqWp + 6 ∧
        (walkStep w u).iqOut = u.iqOut.writeSeq w.iqWp (u.frameIn.readSeq w.source 6))) ∧
    (((walkStep w u).micOut = u.micOut ∧ w'.micWp = w.micWp) ∨
      (w.per ≠ periods u.rxCount ∧ u.rxCount ≤ w.slot ∧ w.mphase = 0 ∧ w'.micWp = w.micWp + 2 ∧
        (walkStep w u).micOut = u.micOut.writeSeq w.micWp (u.frameIn.readSeq w.source 2))) := by
  rw [walkStep_eq, State.walkState] at h ⊢
  rcases classify_cases u.rxCount u.rxSel w with
    ⟨hstate, -⟩ | ⟨hstate, -⟩ | ⟨hstate, hper, hslot, hsel⟩ | ⟨⟨k, hstate⟩, -⟩ | ⟨hstate, hper, hslot, hphase⟩ |
    ⟨hstate, -⟩ <;> simp only [hstate] at h ⊢
  · cases h
    exact ⟨.inl ⟨rfl, rfl⟩, .inl ⟨rfl, rfl⟩⟩
  · rw [endSubframe] at h ⊢
    split at h
    · next hsf =>
      cases h
      rw [if_pos hsf]
      exact ⟨.inl ⟨rfl, rfl⟩, .inl ⟨rfl, rfl⟩⟩
    · cases h
  · split at h
    · next hok =>
      cases h
      rw [if_pos hok]
      exact ⟨.inr ⟨hper, hslot, hsel, rfl, rfl⟩, .inl ⟨rfl, rfl⟩⟩
    · cases h
  · cases h
    exact ⟨.inl ⟨rfl, rfl⟩, .inl ⟨rfl, rfl⟩⟩
  · split at h
    · next hok =>
      cases h
      rw [if_pos hok]
      exact ⟨.inl ⟨rfl, rfl⟩, .inr ⟨hper, hslot, hphase, rfl, rfl⟩⟩
    · cases h
  · cases h
    exact ⟨.inl ⟨rfl, rfl⟩, .inl ⟨rfl, rfl⟩⟩

/-- A DECODE begun in `s` has come to the state `u` at the position `w`: every byte below a write pointer is copied, and
every other is as it was in `s`. -/
structure Progress (s u : State) (w : Walk) : Prop where
  geometry : Geometry s.rxCount s.rxSel s.decim s.declaredLen u
  counted : w.Counted s.rxCount s.rxSel s.decim
  frameIn : u.frameIn = s.frameIn
  wf : u.iqOut.wf = true ∧ u.micOut.wf = true
  iq : s.frameIn.Copied s.iqOut (iqSource s.rxCount s.rxSel) w.iqWp u.iqOut
  mic : s.frameIn.Copied s.micOut (micSource s.rxCount s.decim) w.micWp u.micOut

section Progress

variable {s u : State} {w w' : Walk}

theorem progress_start (hiq : s.iqOut.wf = true) (hmic : s.micOut.wf = true) :
    Progress s { s with walk := some Walk.start } Walk.start where
  geometry := ⟨rfl, rfl, rfl, rfl⟩
  counted := Walk.start_counted (decim_pos s)
  frameIn := rfl
  wf := ⟨hiq, hmic⟩
  iq := Memory.copied_zero _ _ _
  mic := Memory.copied_zero _ _ _

theorem Progress.per_lt (h : Progress s u w) (hper : w.per ≠ periods s.rxCount) : w.per < periods s.rxCount :=
  Nat.lt_of_le_of_ne h.counted.per hper

theorem Progress.iqSource_eq (h : Progress s u w) (hper : w.per ≠ periods s.rxCount) (hsel : w.slot = s.rxSel)
    {j : Nat} (hj : j < 6) : iqSource s.rxCount s.rxSel (w.iqWp + j) = w.source + j := by
  have hiq := h.counted.iqCopied
  rw [if_neg (by omega), Nat.add_zero] at hiq
  rw [hiq, iqSource_group (h.per_lt hper) hj, source_eq, h.counted.cur_eq hper, hsel]
  omega

theorem Progress.micSource_eq (h : Progress s u w) (hper : w.per ≠ periods s.rxCount) (hslot : s.rxCount ≤ w.slot)
    (hphase : w.mphase = 0) {j : Nat} (hj : j < 2) :
    micSource s.rxCount s.decim (w.micWp + j) = w.source + j := by
  have hmod : w.per % s.decim = 0 := h.counted.mphase ▸ hphase
  rw [h.counted.micCopied, copiedMics_of_mod_eq_zero (decim_pos s) hmod,
    micSource_group (decim_pos s) (h.per_lt hper) hmod hj, source_eq, h.counted.cur_eq hper,
    le_antisymm h.counted.slot hslot]
  omega

/-- Every round that goes on copies from where the closed form says. -/
theorem Progress.walkStep (h : Progress s u w) (hsel : s.rxSel < s.rxCount) (hnext : (walkStep w u).walk = some w') :
    Progress s (walkStep w u) w' := by
  have hround : w.Round s.rxCount s.rxSel s.decim w' :=
    h.geometry.rxCount ▸ h.geometry.rxSel ▸ h.geometry.decim ▸ walkStep_round hnext
  have hcopies := walkStep_copies hnext
  rw [h.geometry.rxCount, h.geometry.rxSel, h.frameIn] at hcopies
  obtain ⟨hiq, hmic⟩ := hcopies
  refine ⟨h.geometry.walkStep w, hround.counted hsel (decim_pos s) h.counted, ?frame, walkStep_wf w u h.wf, ?iq, ?mic⟩
  case frame =>
    rw [walkStep_frame]
    exact h.frameIn
  case iq =>
    rcases hiq with ⟨hout, hwp⟩ | ⟨hper, -, hslot, hwp, hout⟩
    · exact hwp ▸ hout ▸ h.iq
    · rw [hwp, hout]
      exact h.iq.append h.wf.1 fun _ => h.iqSource_eq hper hslot
  case mic =>
    rcases hmic with ⟨hout, hwp⟩ | ⟨hper, hslot, hphase, hwp, hout⟩
    · exact hwp ▸ hout ▸ h.mic
    · rw [hwp, hout]
      exact h.mic.append h.wf.2 fun _ => h.micSource_eq hper hslot hphase

theorem Progress.runWalk (k : Nat) (hsel : s.rxSel < s.rxCount) (hu : ∀ w, u.walk = some w → Progress s u w)
    (h : (runWalk k u).walk = some w') : Progress s (runWalk k u) w' := by
  induction k generalizing u with
  | zero => exact hu w' h
  | succ k ih =>
    cases hw : u.walk with
    | none =>
      rw [runWalk_none _ hw] at h ⊢
      exact hu w' h
    | some w =>
      rw [runWalk_some _ hw] at h ⊢
      exact ih (fun w₁ hnext => (hu w hw).walkStep hsel hnext) h

end Progress

/-! ## The END of each sub-frame (R104, R110) -/

theorem runWalk_add (j k : Nat) (u : State) : runWalk (j + k) u = runWalk k (runWalk j u) := by
  induction j generalizing u with
  | zero => rw [Nat.zero_add, runWalk]
  | succ j ih =>
    cases hw : u.walk with
    | none => rw [runWalk_none _ hw, runWalk_none _ hw, runWalk_none _ hw]
    | some w => rw [Nat.succ_add, runWalk_some _ hw, runWalk_some _ hw, ih]

section End

variable {n sel d len fuel : Nat} {u : State} {w w' : Walk}

theorem Geometry.runWalk (h : Geometry n sel d len u) (k : Nat) : Geometry n sel d len (runWalk k u) := by
  rw [runWalk_frame]
  exact ⟨h.rxCount, h.rxSel, h.decim, h.declaredLen⟩

/-- Only END goes on to another sub-frame. -/
theorem Walk.Round.sf_eq (h : w.Round n sel d w') (hend : classify n sel w ≠ .done) : w'.sf = w.sf := by
  cases h with
  | nextSubframe hper hcur => exact absurd (classify_done hper hcur) hend
  | _ => rfl

/-- Where every access is in bounds, a round at another state than END goes on in its sub-frame. -/
theorem walkStep_of_not_done (hs : Geometry n sel d len u) (h : walkInBounds n sel d len (fuel + 1) w = true)
    (hend : classify n sel w ≠ .done) :
    ∃ w', (walkStep w u).walk = some w' ∧ w'.sf = w.sf ∧ walkInBounds n sel d len fuel w' = true := by
  rcases walkStep_of_walkInBounds hs h with ⟨w', hnext, -, hbounds⟩ | ⟨hper, hsf, heq⟩
  · have hround : w.Round n sel d w' := hs.rxCount ▸ hs.rxSel ▸ hs.decim ▸ walkStep_round hnext
    exact ⟨w', hnext, hround.sf_eq hend, hbounds⟩
  · have hstate : classify n sel w = .pad :=
      classify_pad hper (by_contra fun hcur => hend (classify_done hper (Nat.not_lt.mp hcur)))
    have hwalk := congrArg State.walk heq
    rw [walkStep_eq, State.walkState, hs.rxCount, hs.rxSel, hstate, endSubframe, if_neg hsf] at hwalk
    cases hwalk

/-- A walk in bounds comes to the END of its sub-frame. -/
theorem exists_runWalk_done (hs : Geometry n sel d len u) (hwalk : u.walk = some w)
    (h : walkInBounds n sel d len fuel w = true) :
    ∃ k fuel' w', fuel = k + (fuel' + 1) ∧ (runWalk k u).walk = some w' ∧ w'.sf = w.sf ∧
      classify n sel w' = .done ∧ walkInBounds n sel d len (fuel' + 1) w' = true := by
  induction fuel generalizing u w with
  | zero => cases h
  | succ fuel ih =>
    by_cases hend : classify n sel w = .done
    · exact ⟨0, fuel, w, (Nat.zero_add _).symm, hwalk, rfl, hend, h⟩
    · obtain ⟨w₁, hnext, hsf, hbounds⟩ := walkStep_of_not_done hs h hend
      obtain ⟨k, fuel', w', hfuel, hrun, hsf', hdone, hbounds'⟩ := ih (hs.walkStep w) hnext hbounds
      refine ⟨k + 1, fuel', w', by omega, ?_, hsf'.trans hsf, hdone, hbounds'⟩
      rwa [runWalk_some _ hwalk]

theorem walkStep_done (hs : Geometry n sel d len u) (hend : classify n sel w = .done) :
    walkStep w u = endSubframe w u := by
  rw [walkStep_eq, State.walkState, hs.rxCount, hs.rxSel, hend]

end End

/-- A DECODE that passes R101's checks comes to the END of each sub-frame, and completes at the second. -/
theorem demultiplex_ends {s : State} (h : validate s = none) :
    ∀ sf < 2, ∃ k w, (runWalk k { s with walk := some Walk.start }).walk = some w ∧ w.sf = sf ∧
      s.walkState w = .done ∧
      (sf = 1 → demultiplex s = endSubframe w (runWalk k { s with walk := some Walk.start })) := by
  have hs : Geometry s.rxCount s.rxSel s.decim s.declaredLen { s with walk := some Walk.start } :=
    ⟨rfl, rfl, rfl, rfl⟩
  obtain ⟨k, fuel, w, hfuel, hrun, hsf, hdone, hbounds⟩ := exists_runWalk_done hs rfl (walkInBounds_start h)
  have hsf0 : w.sf = 0 := hsf
  have hstep : (walkStep w (runWalk k { s with walk := some Walk.start })).walk = some w.nextSubframe := by
    rw [walkStep_done (hs.runWalk k) hdone, endSubframe, if_pos hsf0]
  have hbounds' : walkInBounds s.rxCount s.rxSel s.decim s.declaredLen fuel w.nextSubframe = true := by
    simpa only [walkInBounds, hdone, if_pos hsf0] using hbounds
  obtain ⟨k', fuel', w', hfuel', hrun', hsf', hdone', -⟩ :=
    exists_runWalk_done ((hs.runWalk k).walkStep w) hstep hbounds'
  have hsf1 : w'.sf = 1 := by rw [hsf', Walk.nextSubframe, hsf0]
  have hsecond : ∀ j, runWalk (k + (j + 1)) { s with walk := some Walk.start } =
      runWalk j (walkStep w (runWalk k { s with walk := some Walk.start })) := fun j => by
    rw [runWalk_add, runWalk_some _ hrun]
  intro sf hlt
  rcases Nat.le_one_iff_eq_zero_or_eq_one.mp (Nat.le_of_lt_succ hlt) with rfl | rfl
  · exact ⟨k, w, hrun, hsf0, hdone, nofun⟩
  · refine ⟨k + (k' + 1), w', by rwa [hsecond], hsf1, hdone', fun _ => ?_⟩
    have hend : ∀ u, (endSubframe w' u).walk = none := fun u => by rw [endSubframe, if_neg (by omega)]
    rw [hsecond, demultiplex, hfuel, hsecond, hfuel', runWalk_add, runWalk_some _ hrun',
      walkStep_done (((hs.runWalk k).walkStep w).runWalk k') hdone', runWalk_none _ (hend _)]

theorem registers_of_done {n sel : Nat} {w : Walk} (h : classify n sel w = .done) :
    w.per = periods n ∧ payloadBytes ≤ w.cur := by
  rcases classify_cases n sel w with
    ⟨hstate, -⟩ | ⟨-, hper, hcur⟩ | ⟨hstate, -⟩ | ⟨⟨k, hstate⟩, -⟩ | ⟨hstate, -⟩ | ⟨hstate, -⟩
  · cases h.symm.trans hstate
  · exact ⟨hper, hcur⟩
  all_goals cases h.symm.trans hstate

/-! ## The closed form -/

/-- A DECODE that passes R101's checks has copied both sub-frames' groups, and keeps every other byte. -/
theorem demultiplex_copied {s : State} (h : validate s = none) (hiq : s.iqOut.wf = true) (hmic : s.micOut.wf = true) :
    s.frameIn.Copied s.iqOut (iqSource s.rxCount s.rxSel) (6 * (2 * periods s.rxCount)) (demultiplex s).iqOut ∧
    s.frameIn.Copied s.micOut (micSource s.rxCount s.decim) (2 * (2 * copiedMics s.decim (periods s.rxCount)))
      (demultiplex s).micOut := by
  obtain ⟨-, hsel, -, -⟩ := validate_eq_none h
  obtain ⟨k, w, hrun, hsf, hdone, hend⟩ := demultiplex_ends h 1 (by decide)
  have hprogress : Progress s _ w := Progress.runWalk (u := { s with walk := some Walk.start }) k hsel
    (fun _ hstart => Option.some.inj hstart ▸ progress_start hiq hmic) hrun
  obtain ⟨hper, -⟩ := registers_of_done hdone
  have hiqWp : w.iqWp = 6 * (2 * periods s.rxCount) := by
    rw [hprogress.counted.iqCopied, hprogress.counted.slot_last hper, hper, hsf, if_neg (Nat.not_lt_zero _)]
    omega
  have hmicWp : w.micWp = 2 * (2 * copiedMics s.decim (periods s.rxCount)) := by
    rw [hprogress.counted.micCopied, hper, hsf]
    omega
  rw [hend rfl, endSubframe_iqOut, endSubframe_micOut, ← hiqWp, ← hmicWp]
  exact ⟨hprogress.iq, hprogress.mic⟩

/-- A completed DECODE changes the output buffers and the counts alone. -/
theorem demultiplex_frame {s : State} (h : validate s = none) :
    demultiplex s =
      { s with
        iqOut := (demultiplex s).iqOut, micOut := (demultiplex s).micOut
        iqCount := (demultiplex s).iqCount, micCount := (demultiplex s).micCount, walk := none } := by
  have hdone := demultiplex_completed h
  have hframe := runWalk_frame walkFuel { s with walk := some Walk.start }
  rw [← demultiplex, hdone.fault, hdone.walk] at hframe
  exact hframe

/-- The copied bytes of a payload's last whole period lie within the frame (R115). -/
theorem last_period_le {n : Nat} (hn : n ≤ 3) : 528 + periodBytes n * (periods n - 1) + 6 * n + 1 ≤ 1031 := by
  interval_cases n <;> decide

/-- Settles O20: the copies of a completed DECODE at each group's offsets, and the END of each sub-frame, where the
cursor is in its range and not before the payload's end. -/
theorem decodeClosedForm : Obligations.DecodeClosedForm := by
  intro s hclear hlegal hsync hiqWf hmicWf n d g c
  obtain ⟨hexec, hdone⟩ := exec_decode_completed hclear hlegal hsync
  have hvalid := validate_of_decodeLegal hlegal
  obtain ⟨hiq, hmic⟩ := demultiplex_copied hvalid hiqWf hmicWf
  rw [rxCount_eq_cfgN] at hiq hmic
  rw [rxSel_eq_cfgSel] at hiq
  rw [decim_eq_two_pow] at hmic
  have hd : 0 < d := Nat.two_pow_pos _
  obtain ⟨hiqCount, hmicCount⟩ := hdone.counts_toNat hlegal.1 hd
  have hn : n ≤ 3 := Nat.le_of_lt_succ (Nat.mod_lt _ (by decide))
  refine ⟨demultiplex s, hexec, demultiplex_frame hvalid, fun sf p j hsf hp hj => ?iq,
    fun sf p j hsf hp hphase hj => ?mic, hiqCount, hmicCount, fun a ha => hiq.of_le (hiqCount ▸ ha),
    fun a ha => hmic.of_le (hmicCount ▸ ha), last_period_le hn, fun sf hsf => ?ends, fun k w hrun hend => ?last⟩
  case iq =>
    rw [Nat.mul_comm g sf]
    exact (hiq.of_lt (offset_lt hsf hp hj)).trans (congrArg s.frameIn.read (iqSource_group hp hj))
  case mic =>
    rw [Nat.mul_comm c sf]
    exact (hmic.of_lt (offset_lt hsf (copiedMics_lt hd hp hphase) hj)).trans
      (congrArg s.frameIn.read (micSource_group hd hp hphase hj))
  case ends =>
    obtain ⟨k, w, hrun, hsf', hend, -⟩ := demultiplex_ends hvalid sf hsf
    exact ⟨k, w, hrun, hsf', hend⟩
  case last =>
    have hw : w.InRange s.rxCount s.decim := runWalk_inRange (s := { s with walk := some Walk.start }) k
      (fun _ hstart => Option.some.inj hstart ▸ Walk.start_inRange) hrun
    exact le_antisymm hw.cur_le (registers_of_done hend).2

/-! ## Decoding again (R100) -/

theorem exec_decode_of_faulted {s : State} (h : s.fault ≠ 0#8) : exec .decode s = .next s := by
  simp only [exec, execDecode, unlessFaulted_faulted _ h]

/-- DECODE's checks read the configuration, DEC_CFG, FRAME_LEN and FRAME_IN, which DECODE leaves alone. -/
theorem decodeFault_demultiplex (s : State) : decodeFault (demultiplex s) = decodeFault s := by
  rw [demultiplex, runWalk_frame]
  rfl

/-- The second DECODE copies the same bytes to the same offsets, and counts the same groups. -/
theorem demultiplex_demultiplex {s : State} (h : validate s = none) (hiq : s.iqOut.wf = true)
    (hmic : s.micOut.wf = true) : demultiplex (demultiplex s) = demultiplex s := by
  have hgeometry : Geometry s.rxCount s.rxSel s.decim s.declaredLen (demultiplex s) :=
    Geometry.runWalk (u := { s with walk := some Walk.start }) ⟨rfl, rfl, rfl, rfl⟩ walkFuel
  have hframe : (demultiplex s).frameIn = s.frameIn := by rw [demultiplex_frame h]
  have hvalid : validate (demultiplex s) = none := by
    rw [demultiplex_frame h]
    exact h
  obtain ⟨hiqWf, hmicWf⟩ := runWalk_wf walkFuel { s with walk := some Walk.start } ⟨hiq, hmic⟩
  obtain ⟨hiqWf', hmicWf'⟩ := runWalk_wf walkFuel { demultiplex s with walk := some Walk.start } ⟨hiqWf, hmicWf⟩
  obtain ⟨hiqOut, hmicOut⟩ := demultiplex_copied h hiq hmic
  obtain ⟨hiqOut', hmicOut'⟩ := demultiplex_copied hvalid hiqWf hmicWf
  have hdone := demultiplex_completed h
  have hdone' := demultiplex_completed hvalid
  rw [hframe, hgeometry.rxCount, hgeometry.rxSel] at hiqOut'
  rw [hframe, hgeometry.rxCount, hgeometry.decim] at hmicOut'
  rw [hgeometry.rxCount, hgeometry.decim] at hdone'
  rw [demultiplex_frame hvalid, hiqOut.eq_of_copied hiqOut' hiqWf hiqWf', hmicOut.eq_of_copied hmicOut' hmicWf hmicWf',
    hdone'.iqCount, hdone'.micCount, ← hdone.iqCount, ← hdone.micCount, ← hdone.walk]

/-- Settles O24: a faulted block ignores DECODE, and a completed DECODE is repeated with the same result. -/
theorem decodeTwiceIsDecodeOnce : Obligations.DecodeTwiceIsDecodeOnce := by
  intro s hiqWf hmicWf
  by_cases hclear : s.fault = 0#8
  · cases hok : decodeFault s with
    | some c => exact ⟨_, exec_decode_of_fault hclear hok, exec_decode_of_faulted (code_ne_zero c)⟩
    | none =>
      have hvalid := validate_of_decodeFault hok
      have hclear' : (demultiplex s).fault = 0#8 := (demultiplex_completed hvalid).fault.trans hclear
      refine ⟨_, exec_decode_of_decodeFault hclear hok, ?_⟩
      rw [exec_decode_of_decodeFault hclear' ((decodeFault_demultiplex s).trans hok),
        demultiplex_demultiplex hvalid hiqWf hmicWf]
  · exact ⟨s, exec_decode_of_faulted hclear, exec_decode_of_faulted hclear⟩

end Sys2Proof.Machine
end

section
/-! # What DECODE reads (40_decode.md R102, R110, R117)

A copy reads within a whole period, and the check of R102 the nine sync bytes. So where two frames agree on these, each
round does the same with both, and so does DECODE. -/

namespace Sys2Proof.Machine

open Sys2Proof.Claims

/-! ## The bytes that a copy reads -/

theorem Memory.readSeq_congr {w : Nat} {m m' : Memory w} {a n : Nat} (h : ∀ i < n, m'.read (a + i) = m.read (a + i)) :
    m'.readSeq a n = m.readSeq a n := by
  refine List.ext_getElem (by simp) fun i hi _ => ?_
  rw [Memory.getElem_readSeq, Memory.getElem_readSeq, h i (by simpa using hi)]

/-- The two frames agree on the whole periods of both payloads, for `n` receivers. -/
def samePeriods (n : Nat) (m m' : Memory 8) : Prop :=
  ∀ sf c, sf < 2 → c < wholePeriods n * period n → m'.read (16 + 512 * sf + c) = m.read (16 + 512 * sf + c)

/-- A group of a period that is not complete is read from the whole periods. -/
theorem Walk.InRange.readSeq_eq {n d k : Nat} {w : Walk} (h : w.InRange n d) (hper : w.per ≠ periods n)
    (hk : 6 * w.slot + k ≤ periodBytes n) {m m' : Memory 8} (hsame : samePeriods n m m') :
    m'.readSeq w.source k = m.readSeq w.source k := by
  have hlt : w.per + 1 ≤ periods n := Nat.lt_of_le_of_ne h.per hper
  have hnext : periodBytes n * (w.per + 1) ≤ periodBytes n * periods n := Nat.mul_le_mul_left _ hlt
  have hcur := h.cur_eq hper
  rw [Nat.mul_add_one] at hnext
  refine Memory.readSeq_congr fun i hi => ?_
  rw [source_eq, Nat.add_assoc _ w.cur i]
  refine hsame w.sf (w.cur + i) (Nat.lt_succ_of_le h.sf) ?_
  change w.cur + i < periods n * periodBytes n
  rw [Nat.mul_comm]
  omega

/-! ## Every round, and every walk -/

/-- The same state with another frame in FRAME_IN. -/
def State.withFrame (s : State) (f : Memory 8) : State := { s with frameIn := f }

/-- A round does the same with both frames. -/
theorem walkStep_withFrame {s : State} {w : Walk} {f : Memory 8} (hw : w.InRange s.rxCount s.decim)
    (hsame : samePeriods s.rxCount s.frameIn f) :
    walkStep w (s.withFrame f) = (walkStep w s).withFrame f := by
  have hlen : (s.withFrame f).declaredLen = s.declaredLen := rfl
  have hstate : (s.withFrame f).walkState w = s.walkState w := rfl
  have hframe : (s.withFrame f).frameIn = f := rfl
  rw [walkStep_eq, walkStep_eq, hstate, hlen, hframe, State.walkState]
  rcases classify_cases s.rxCount s.rxSel w with
    ⟨hstate, -⟩ | ⟨hstate, -⟩ | ⟨hstate, hper, hslot, -⟩ | ⟨⟨k, hstate⟩, -⟩ | ⟨hstate, hper, -, -⟩ | ⟨hstate, -⟩ <;>
    simp only [hstate]
  · rfl
  · simp only [endSubframe]
    split <;> rfl
  · have hgroup : 6 * w.slot + 6 ≤ periodBytes s.rxCount := by
      simp only [periodBytes, iqGroupBytes]
      omega
    rw [hw.readSeq_eq hper hgroup hsame]
    split <;> rfl
  · rfl
  · have hgroup : 6 * w.slot + 2 ≤ periodBytes s.rxCount := by
      have := hw.slot
      simp only [periodBytes, iqGroupBytes, micGroupBytes]
      omega
    rw [hw.readSeq_eq hper hgroup hsame]
    split <;> rfl
  · rfl

theorem runWalk_withFrame (k : Nat) {s : State} {f : Memory 8}
    (hs : ∀ w, s.walk = some w → w.InRange s.rxCount s.decim) (hsame : samePeriods s.rxCount s.frameIn f) :
    runWalk k (s.withFrame f) = (runWalk k s).withFrame f := by
  induction k generalizing s with
  | zero => rfl
  | succ k ih =>
    cases hw : s.walk with
    | none => rw [runWalk_none _ hw, runWalk_none (s := s.withFrame f) _ hw]
    | some w =>
      have hframe : (walkStep w s).frameIn = s.frameIn := by rw [walkStep_frame]
      rw [runWalk_some _ hw, runWalk_some (s := s.withFrame f) _ hw, walkStep_withFrame (hs w hw) hsame]
      refine ih (fun w' hnext => ?_) ?_
      · rw [walkStep_rxCount, walkStep_decim]
        exact (walkStep_round hnext).inRange (hs w hw)
      · rwa [walkStep_rxCount, hframe]

/-! ## The checks -/

/-- The check of R102 reads the sync bytes alone, and only under STRICT_SYNC. -/
theorem checkSync_withFrame {s : State} {f : Memory 8}
    (hsync : s.config.strictSync = true → ∀ a ∈ [0, 1, 2, 8, 9, 10, 520, 521, 522], f.read a = s.frameIn.read a) :
    checkSync (s.withFrame f) = checkSync s := by
  have hchecked : (s.config.strictSync && !syncOk f) = (s.config.strictSync && !syncOk s.frameIn) := by
    cases hstrict : s.config.strictSync with
    | false => rfl
    | true =>
      have hok : syncOk f = syncOk s.frameIn := by
        rw [Bool.eq_iff_iff, syncOk_iff, syncOk_iff, syncInPlace, syncInPlace]
        simp [hsync hstrict]
      rw [hok]
  simp only [checkSync, State.withFrame, hchecked]

theorem decodeFault_withFrame {s : State} {f : Memory 8}
    (hsync : s.config.strictSync = true → ∀ a ∈ [0, 1, 2, 8, 9, 10, 520, 521, 522], f.read a = s.frameIn.read a) :
    decodeFault (s.withFrame f) = decodeFault s := by
  have hvalidate : validate (s.withFrame f) = validate s := rfl
  have hbounds : boundsCheck (s.withFrame f) = boundsCheck s := rfl
  rw [decodeFault, decodeFault, hvalidate, checkSync_withFrame hsync, hbounds]

/-- Settles O23: DECODE takes two states that differ in such frames to two that do. -/
theorem decodeIgnoresOtherFrameBytes : Obligations.DecodeIgnoresOtherFrameBytes := by
  intro s f hsame hsync
  rw [← rxCount_eq_cfgN] at hsame
  have hrun : demultiplex (s.withFrame f) = (demultiplex s).withFrame f :=
    runWalk_withFrame (s := { s with walk := some Walk.start }) walkFuel
      (fun _ hstart => Option.some.inj hstart ▸ Walk.start_inRange) hsame
  have hrelated := unlessFaulted_raiseOr_related (R := fun a b => b = a.withFrame f) (s := s)
    (s' := s.withFrame f) (check := decodeFault) (run := fun _ => demultiplex) rfl rfl
    (decodeFault_withFrame hsync).symm (fun _ => rfl) hrun
  exact ⟨_, rfl, congrArg Host.Outcome.next hrelated⟩

end Sys2Proof.Machine
end

section
/-! # The conversions over a block (41_convert.md R130, R131, R133, R134, R136)

Both conversions make the same two checks and then run a loop over the pairs. Of a loop it is enough to know what its
own round writes: the rounds after it leave those elements alone. -/

namespace Sys2Proof.Machine

open Sys2Proof.Claims

/-! ## The checks in their order (R172) -/

theorem convertFault_of_not_blockInRange {s : State} (valid : Bool) (h : ¬blockInRange s) :
    convertFault s valid = some .blockSize := by
  refine if_pos ?_
  rw [blockInRange] at h
  rw [State.block]
  omega

theorem convertFault_of_blockInRange {s : State} (valid : Bool) (h : blockInRange s) :
    convertFault s valid = if valid then none else some .scaleUnset := by
  obtain ⟨hlow, hhigh⟩ := h
  refine if_neg ?_
  rw [State.block]
  omega

theorem exec_cvtIn_of_fault {s : State} {c : FaultCode} (hclear : s.fault = 0#8)
    (h : convertFault s s.sinValid = some c) : exec .cvtIn s = .next { s with fault := c.code } := by
  simp only [exec, execCvtIn, unlessFaulted_clear _ hclear, h, raiseOr_some, raiseFault]

theorem exec_cvtOut_of_fault {s : State} {c : FaultCode} (hclear : s.fault = 0#8)
    (h : convertFault s s.soutValid = some c) : exec .cvtOut s = .next { s with fault := c.code } := by
  simp only [exec, execCvtOut, unlessFaulted_clear _ hclear, h, raiseOr_some, raiseFault]

theorem exec_cvtIn_of_ready {s : State} (hclear : s.fault = 0#8) (hblock : blockInRange s)
    (hvalid : s.sinValid = true) : exec .cvtIn s = .next (convertInFrom s.block 0 s) := by
  have hok : convertFault s s.sinValid = none := by rw [convertFault_of_blockInRange _ hblock, if_pos hvalid]
  simp only [exec, execCvtIn, unlessFaulted_clear _ hclear, hok, raiseOr_none]

theorem exec_cvtOut_of_ready {s : State} (hclear : s.fault = 0#8) (hblock : blockInRange s)
    (hvalid : s.soutValid = true) : exec .cvtOut s = .next (convertOutFrom s.block 0 s) := by
  have hok : convertFault s s.soutValid = none := by rw [convertFault_of_blockInRange _ hblock, if_pos hvalid]
  simp only [exec, execCvtOut, unlessFaulted_clear _ hclear, hok, raiseOr_none]

/-- Settles O37: a block length out of range is BLOCK_SIZE whatever the scale; one in range leaves the scale's check. -/
theorem conversionFaultsInOrder : Obligations.ConversionFaultsInOrder := by
  refine fun s hclear =>
    ⟨fun hblock => ⟨?inSize, ?outSize⟩, fun hblock hunset => ?inScale, fun hblock hunset => ?outScale⟩
  case inSize => exact exec_cvtIn_of_fault hclear (convertFault_of_not_blockInRange _ hblock)
  case outSize => exact exec_cvtOut_of_fault hclear (convertFault_of_not_blockInRange _ hblock)
  case inScale =>
    exact exec_cvtIn_of_fault (c := .scaleUnset) hclear (by rw [convertFault_of_blockInRange _ hblock, hunset]; rfl)
  case outScale =>
    exact exec_cvtOut_of_fault (c := .scaleUnset) hclear (by rw [convertFault_of_blockInRange _ hblock, hunset]; rfl)

/-! ## The 24-bit sample (R131) -/

/-- The shift up puts the sample's sign at the top of the word, so the word's value is 256 times the sample's. -/
theorem sext24_eq {b0 b1 b2 : Byte} {u : Nat} (hu : 65536 * b0.toNat + 256 * b1.toNat + b2.toNat = u) :
    sext24 b0 b1 b2 = if u < 2 ^ 23 then (u : Int) else (u : Int) - 2 ^ 24 := by
  have hword : (b0 ++ b1 ++ b2 ++ 0#8 : BitVec 32).toNat = 256 * u := by
    simp only [toNat_append_eq_add, BitVec.toNat_ofNat]
    omega
  rw [sext24, BitVec.toInt_sshiftRight, BitVec.toInt_eq_toNat_cond, hword, Int.shiftRight_eq_div_pow]
  split <;> split <;> omega

theorem sext24_bounds (b0 b1 b2 : Byte) : -8388608 ≤ sext24 b0 b1 b2 ∧ sext24 b0 b1 b2 ≤ 8388607 := by
  rw [sext24_eq rfl]
  split <;> omega

/-- Settles O38: the two shifts as arithmetic, and the rule's examples by evaluation. -/
theorem signExtension24 : Obligations.SignExtension24 :=
  ⟨fun b0 b1 b2 => ⟨sext24_eq rfl, sext24_bounds b0 b1 b2⟩, by decide⟩

theorem cvtInSample_eq_sample24 (m : Memory 8) (off : Nat) : cvtInSample m off = sample24 m off :=
  sext24_eq rfl

/-! ## The inbound loop (R133) -/

/-- The element that a write of cvt_in leaves: its value, or a drawn quiet NaN (R138). -/
theorem convertInElem_read_same (i : Nat) (v : Int) {s : State} (hwf : s.dspIn.wf = true) :
    ∃ d, (convertInElem i v s).dspIn.read i = (cvtInValue s.config s.scaleIn v).getD (quietNaN d) :=
  ⟨_, by rw [convertInElem_dspIn, Memory.read_write_same _ _ 0 _ hwf]⟩

@[simp] theorem convertInPair_config (k : Nat) (s : State) : (convertInPair k s).config = s.config := by
  simp [convertInPair]

@[simp] theorem convertInPair_scaleIn (k : Nat) (s : State) : (convertInPair k s).scaleIn = s.scaleIn := by
  simp [convertInPair]

@[simp] theorem convertInPair_cvtIn (k : Nat) (s : State) : (convertInPair k s).cvtIn = s.cvtIn := by
  simp [convertInPair]

/-- Pair k's round writes I at 2k and Q at 2k+1. -/
theorem convertInPair_read_same (k : Nat) {c : Nat} (hc : c < 2) {s : State} (hwf : s.dspIn.wf = true) :
    ∃ d, (convertInPair k s).dspIn.read (2 * k + c) =
      (cvtInValue s.config s.scaleIn (cvtInSample s.cvtIn (6 * k + 3 * c))).getD (quietNaN d) := by
  rcases (by omega : c = 0 ∨ c = 1) with rfl | rfl
  · obtain ⟨d, hd⟩ := convertInElem_read_same (2 * k) (cvtInSample s.cvtIn (6 * k)) hwf
    refine ⟨d, ?_⟩
    rw [convertInPair, convertInElem_dspIn, Memory.read_write_other _ _ (by omega)]
    exact hd
  · have hwf' : (convertInElem (2 * k) (cvtInSample s.cvtIn (6 * k)) s).dspIn.wf = true := by
      rw [convertInElem_dspIn]
      exact Memory.wf_write _ _ _ hwf
    simpa [convertInPair] using convertInElem_read_same (2 * k + 1) (cvtInSample s.cvtIn (6 * k + 3)) hwf'

/-- Each pair of the loop holds what its own round wrote. -/
theorem convertInFrom_read_same (n k : Nat) {j c : Nat} (hkj : k ≤ j) (hj : j < k + n) (hc : c < 2) {s : State}
    (hwf : s.dspIn.wf = true) :
    ∃ d, (convertInFrom n k s).dspIn.read (2 * j + c) =
      (cvtInValue s.config s.scaleIn (cvtInSample s.cvtIn (6 * j + 3 * c))).getD (quietNaN d) := by
  induction n generalizing k s with
  | zero => omega
  | succ n ih =>
    rw [convertInFrom]
    rcases hkj.eq_or_lt with rfl | hlt
    · rw [convertInFrom_read_other _ _ _ _ (by omega)]
      exact convertInPair_read_same k hc hwf
    · simpa using ih (k + 1) hlt (by omega) (convertInPair_wf k s hwf)

/-! ## The outbound loop (R136) -/

/-- Pair k's round writes the two values as four bytes from 4k on, each high byte first. -/
theorem convertOutPair_read_same (k : Nat) {c : Nat} (hc : c < 2) {s : State} (hwf : s.audioOut.wf = true) :
    (convertOutPair k s).audioOut.read (4 * k + 2 * c) ++ (convertOutPair k s).audioOut.read (4 * k + 2 * c + 1) =
      cvtOutValue s.config s.scaleOut (s.dspOut.read (2 * k + c)) := by
  rw [convertOutPair_audioOut, Nat.add_assoc (4 * k),
    Memory.read_writeSeq_same _ _ _ (2 * c) hwf (by change _ < 4; omega),
    Memory.read_writeSeq_same _ _ _ (2 * c + 1) hwf (by change _ < 4; omega)]
  rcases (by omega : c = 0 ∨ c = 1) with rfl | rfl
  · exact append_bytes16 _
  · exact append_bytes16 _

/-- Each pair of the loop holds what its own round wrote. -/
theorem convertOutFrom_read_same (n k : Nat) {j c : Nat} (hkj : k ≤ j) (hj : j < k + n) (hc : c < 2) {s : State}
    (hwf : s.audioOut.wf = true) :
    (convertOutFrom n k s).audioOut.read (4 * j + 2 * c) ++ (convertOutFrom n k s).audioOut.read (4 * j + 2 * c + 1) =
      cvtOutValue s.config s.scaleOut (s.dspOut.read (2 * j + c)) := by
  induction n generalizing k s with
  | zero => omega
  | succ n ih =>
    rw [convertOutFrom]
    rcases hkj.eq_or_lt with rfl | hlt
    · rw [convertOutFrom_read_other _ _ _ _ (by omega), convertOutFrom_read_other _ _ _ _ (by omega)]
      exact convertOutPair_read_same k hc hwf
    · exact ih (k + 1) hlt (by omega) (Memory.wf_writeSeq _ _ _ hwf)

/-- Settles O36: a ready CVT_OUT is the loop over all B pairs, from pair 0. -/
theorem cvtOutConvertsBlock : Obligations.CvtOutConvertsBlock := by
  intro s hclear hblock hvalid hwf
  refine ⟨_, exec_cvtOut_of_ready hclear hblock hvalid, convertOutFrom_eq _ _ s, fun k c hk hc => ?_,
    fun a ha => ?_⟩
  · exact convertOutFrom_read_same s.block 0 (Nat.zero_le k) (by rwa [Nat.zero_add]) hc hwf
  · exact convertOutFrom_read_other s.block 0 a s (.inr (by rwa [Nat.zero_add]))

end Sys2Proof.Machine
end

section
/-! # The quiet NaNs, and CVT_IN over a block (41_convert.md R133, R138)

The patterns that are drawn where cvt_in yields a NaN are the quiet NaNs, all of them and no others. -/

namespace Sys2Proof.Machine

open Sys2Proof.Claims

/-! ## The patterns of the quiet NaNs -/

/-- A quiet NaN is known by its exponent field and its fraction's first bit. -/
theorem isQuietNaN64_iff (b : BitVec 64) :
    isQuietNaN64 b = true ↔ b.toNat / 2 ^ 51 % 2 ^ 12 = 2 ^ 12 - 1 := by
  have hex : (b.extractLsb' 52 11).toNat = b.toNat / 2 ^ 52 % 2 ^ 11 := toNat_extractLsb'_eq_div_mod 52 11 b
  have hfr : (b.extractLsb' 0 52).toNat = b.toNat / 2 ^ 0 % 2 ^ 52 := toNat_extractLsb'_eq_div_mod 0 52 b
  have hbit : b.getLsbD 51 = true ↔ b.toNat / 2 ^ 51 % 2 = 1 := by
    rw [BitVec.getLsbD, Nat.testBit_eq_decide_div_mod_eq, decide_eq_true_eq]
  have hnan : f64 b = .nan ↔ b.toNat / 2 ^ 52 % 2 ^ 11 = 2047 ∧ b.toNat / 2 ^ 0 % 2 ^ 52 ≠ 0 := by
    unfold f64
    simp only [hex, hfr]
    split
    · split <;> simp_all
    · split <;> simp_all
  rw [isQuietNaN64, isNaN64, Bool.and_eq_true, beq_iff_eq, hnan, hbit]
  omega

theorem quietNaN_toNat (d : BitVec 52) :
    (quietNaN d).toNat = d.toNat / 2 ^ 51 % 2 * 2 ^ 63 + (2 ^ 12 - 1) * 2 ^ 51 + d.toNat % 2 ^ 51 := by
  simp only [quietNaN, toNat_append_eq_add, toNat_extractLsb'_eq_div_mod, BitVec.toNat_ofNat]
  omega

theorem isQuietNaN64_quietNaN (d : BitVec 52) : isQuietNaN64 (quietNaN d) = true := by
  rw [isQuietNaN64_iff, quietNaN_toNat]
  omega

/-- Every quiet NaN is the one of its own sign and payload. -/
theorem exists_quietNaN_eq {b : BitVec 64} (h : isQuietNaN64 b = true) : ∃ d, quietNaN d = b := by
  rw [isQuietNaN64_iff] at h
  refine ⟨b.extractLsb' 63 1 ++ b.extractLsb' 0 51, BitVec.eq_of_toNat_eq ?_⟩
  rw [quietNaN_toNat]
  simp only [toNat_append_eq_add, toNat_extractLsb'_eq_div_mod]
  omega

/-- Settles O35: a ready CVT_IN is the loop over all B pairs, from pair 0; a NaN's element is drawn, and quiet. -/
theorem cvtInConvertsBlock : Obligations.CvtInConvertsBlock := by
  intro s hclear hblock hvalid hwf
  refine ⟨_, exec_cvtIn_of_ready hclear hblock hvalid, convertInFrom_eq _ _ s, fun k c hk hc => ?_, fun a ha => ?_⟩
  · obtain ⟨d, hread⟩ := convertInFrom_read_same s.block 0 (Nat.zero_le k) (by rwa [Nat.zero_add]) hc hwf
    rw [cvtInSample_eq_sample24] at hread
    split
    · next b hvalue => rw [hread, hvalue, Option.getD_some]
    · next hvalue => rw [hread, hvalue, Option.getD_none, isQuietNaN64_quietNaN]
  · exact convertInFrom_read_other s.block 0 a s (.inr (by rwa [Nat.zero_add]))

end Sys2Proof.Machine
end

section
/-! # The default cvt_in (41_convert.md R132, R138)

Rounding leaves alone a number that some finite pattern stands for, since no finite pattern is nearer than the rounded
one. The 24-bit samples and their products with 2^-23 are such numbers, and so is every integer up to 2^53. A sample
is then never an infinity, so a NaN product comes from the scale. -/

namespace Sys2Proof.Machine

open Sys2Proof.Claims

/-! ## Numbers that need no rounding -/

theorem lt_overflow {x : ℚ} (h : x ≤ 2 ^ 53) : x < 2 ^ 1024 - 2 ^ 970 := by
  have hunit : (2 : ℚ) ^ (1 : Int) ≤ 2 ^ (971 : Int) := zpow_le_zpow_right₀ one_le_two (by decide)
  rw [overflow_midpoint]
  generalize (2 : ℚ) ^ (971 : Int) = u at *
  push_cast
  linarith

/-- A number that a finite pattern stands for is rounded to itself. -/
theorem valueOf_roundF64_of_representable (neg : Bool) {m : Nat} {e : Int}
    (hsmall : (m : ℚ) * 2 ^ e < 2 ^ 1024 - 2 ^ 970) {c : BitVec 64} (hc : isFinite c)
    (hvalue : valueOf c = signFactor neg * ((m : ℚ) * 2 ^ e)) : valueOf (roundF64 neg m e) = valueOf c := by
  obtain ⟨hnear, -⟩ := roundF64_nearest neg hsmall hc hvalue
  rw [sub_self, abs_zero] at hnear
  exact sub_eq_zero.mp (abs_nonpos_iff.mp hnear)

/-- Fewer than 54 significant bits, above the subnormal end, are a whole number of last places. -/
theorem significand_eq_scaled {m : Nat} (hm : m < 2 ^ 53) {e : Int} (he : -1074 ≤ e) :
    (significand m e : ℚ) = scaled m e := by
  have hbits : Nat.log2 m < 53 := by
    by_cases hzero : m = 0
    · simp [hzero]
    · exact (Nat.log2_lt hzero).mpr hm
  have hplace : lastPlace m e ≤ e := by unfold lastPlace; omega
  obtain ⟨k, hk⟩ := Int.eq_ofNat_of_zero_le (sub_nonneg.mpr hplace)
  rw [significand, if_pos hplace, scaled, hk, Int.toNat_natCast, zpow_natCast]
  push_cast
  rfl

theorem valueOf_roundF64_of_lt (neg : Bool) {m : Nat} (hm : m < 2 ^ 53) {e : Int} (he : -1074 ≤ e)
    (hsmall : (m : ℚ) * 2 ^ e ≤ 2 ^ 53) : valueOf (roundF64 neg m e) = signFactor neg * ((m : ℚ) * 2 ^ e) := by
  by_cases hzero : m = 0
  · subst hzero
    rw [roundF64_zero, valueOf_finite (f64_signed64 neg (by decide))]
    simp
  · obtain ⟨-, hvalue, -⟩ := roundF64_finite neg hzero (lt_overflow hsmall)
    rw [hvalue, significand_eq_scaled hm he, scaled_mul_lastPlace]

/-- The same for 2^53, which is 2^52 at the next exponent. -/
theorem valueOf_roundF64_of_le (neg : Bool) {m : Nat} (hm : m ≤ 2 ^ 53) {e : Int} (he : -1074 ≤ e)
    (hsmall : (m : ℚ) * 2 ^ e ≤ 2 ^ 53) : valueOf (roundF64 neg m e) = signFactor neg * ((m : ℚ) * 2 ^ e) := by
  rcases hm.lt_or_eq with hlt | rfl
  · exact valueOf_roundF64_of_lt neg hlt he hsmall
  · have hcarry : ((2 ^ 53 : Nat) : ℚ) * 2 ^ e = ((2 ^ 52 : Nat) : ℚ) * 2 ^ (e + 1) := by
      rw [zpow_add_one₀ two_ne_zero]
      push_cast
      ring
    have hhalf : ((2 ^ 52 : Nat) : ℚ) * 2 ^ (e + 1) ≤ 2 ^ 53 := hcarry ▸ hsmall
    have hvalue := valueOf_roundF64_of_lt neg (m := 2 ^ 52) (by decide) (e := e + 1) (by omega) hhalf
    rw [valueOf_roundF64_of_representable neg (lt_overflow hsmall) (roundF64_isFinite neg (lt_overflow hhalf))
      (by rw [hvalue, hcarry]), hvalue, hcarry]

theorem signFactor_mul_natAbs (v : Int) : signFactor (decide (v < 0)) * (v.natAbs : ℚ) = v := by
  rcases lt_or_ge v 0 with hneg | hpos
  · simp [signFactor, hneg, abs_of_neg hneg]
  · simp [signFactor, hpos.not_gt, abs_of_nonneg hpos]

/-- An integer of at most 53 significant bits, times a power of two, is its own rounding. -/
theorem roundF64_int {v : Int} (hv : v.natAbs ≤ 2 ^ 53) {e : Int} (hlow : -1074 ≤ e) (hhigh : e ≤ 0) :
    isFinite (roundF64 (decide (v < 0)) v.natAbs e) ∧
      valueOf (roundF64 (decide (v < 0)) v.natAbs e) = (v : ℚ) * 2 ^ e := by
  have hsmall : (v.natAbs : ℚ) * 2 ^ e ≤ 2 ^ 53 :=
    calc (v.natAbs : ℚ) * 2 ^ e ≤ (2 ^ 53 : Nat) * 1 :=
          mul_le_mul (by exact_mod_cast hv) (zpow_le_one_of_nonpos₀ one_le_two hhigh) (by positivity) (by positivity)
      _ = 2 ^ 53 := by norm_num
  refine ⟨roundF64_isFinite _ (lt_overflow hsmall), ?_⟩
  rw [valueOf_roundF64_of_le _ hv hlow hsmall, ← mul_assoc, signFactor_mul_natAbs]

/-- R13: fp64 of an integer is the integer itself. -/
theorem fp64_exact {v : Int} (hv : v.natAbs ≤ 2 ^ 53) : isFinite (fp64 v) ∧ valueOf (fp64 v) = v := by
  simpa [fp64] using roundF64_int hv (e := 0) (by decide) le_rfl

/-! ## Products that are representable -/

/-- A product of two finite patterns that a finite pattern stands for is exact. -/
theorem mulRNE_exact {a b c : BitVec 64} (ha : isFinite a) (hb : isFinite b) (hc : isFinite c)
    (hvalue : valueOf c = valueOf a * valueOf b) (hsmall : |valueOf a * valueOf b| ≤ 2 ^ 53) :
    ∃ r, mulRNE a b = some r ∧ isFinite r ∧ valueOf r = valueOf a * valueOf b := by
  obtain ⟨m, e, hmul, hexact, habs⟩ := mulRNE_rounds ha hb
  rw [habs] at hsmall
  refine ⟨_, hmul, roundF64_isFinite _ (lt_overflow hsmall), ?_⟩
  rw [valueOf_roundF64_of_representable _ (lt_overflow hsmall) hc (hvalue.trans hexact), hvalue]

/-- 2^-23 as a scale. -/
theorem scale_two_pow_neg_23 :
    isFinite 0x3E80000000000000#64 ∧ valueOf 0x3E80000000000000#64 = (2 : ℚ) ^ (-23 : Int) := by
  have hf : f64 0x3E80000000000000#64 = .finite false (2 ^ 52) (-75) := by decide
  refine ⟨⟨_, _, _, hf⟩, ?_⟩
  rw [valueOf_finite hf]
  norm_num [signFactor]

theorem cvtInStandard_two_pow_neg_23 {v : Int} (hlow : -8388608 ≤ v) (hhigh : v ≤ 8388607) :
    ∃ b, cvtInStandard 0x3E80000000000000#64 v = some b ∧ isFinite b ∧ valueOf b = (v : ℚ) / 2 ^ 23 := by
  have hv : v.natAbs ≤ 2 ^ 53 := by omega
  obtain ⟨hsample, hsampleValue⟩ := fp64_exact hv
  obtain ⟨hscale, hscaleValue⟩ := scale_two_pow_neg_23
  obtain ⟨hresult, hresultValue⟩ := roundF64_int hv (e := -23) (by decide) (by decide)
  have hproduct : valueOf (fp64 v) * valueOf 0x3E80000000000000#64 = (v : ℚ) / 2 ^ 23 := by
    rw [hsampleValue, hscaleValue, zpow_neg, div_eq_mul_inv]
    rfl
  have hsmall : |(v : ℚ) / 2 ^ 23| ≤ 2 ^ 53 := by
    have hlow' : (-8388608 : ℚ) ≤ v := by exact_mod_cast hlow
    have hhigh' : (v : ℚ) ≤ 8388607 := by exact_mod_cast hhigh
    rw [abs_le]
    constructor <;> linarith
  rw [← hproduct] at hsmall ⊢
  exact mulRNE_exact hsample hscale hresult (by rw [hresultValue, hsampleValue, hscaleValue]) hsmall

/-- A zero sample is the positive zero, so the product is a zero with the scale's sign. -/
theorem cvtInStandard_zero {scale : BitVec 64} (h : isFinite scale) :
    cvtInStandard scale 0 = some (BitVec.ofBool scale.msb ++ 0#63) := by
  obtain ⟨neg, m, e, hf⟩ := h
  have hzero : f64 (fp64 0) = .finite false 0 (-1074) := f64_signed64 false (by decide)
  rw [cvtInStandard, mulRNE_finite hzero hf, f64_finite_msb hf, zero_mul, roundF64_zero, Bool.false_bne]
  rfl

/-- Settles O40: the default rule is the product by definition; an integer up to 2^53 and a sample's product with 2^-23
are their own roundings. -/
theorem cvtInExactAtPowerOfTwo : Obligations.CvtInExactAtPowerOfTwo := by
  refine ⟨fun c scale v hrule => ?default, fun v => fp64_exact, fun v => cvtInStandard_two_pow_neg_23,
    fun scale => cvtInStandard_zero⟩
  case default =>
    have hvalue : cvtInValue c scale v = cvtInStandard scale v := by rw [cvtInValue, hrule]
    exact ⟨hvalue, hvalue⟩

/-! ## NaN products (R138) -/

/-- A number times a scale is a NaN for a NaN scale, and for an infinite one where the number is zero. -/
theorem mulRNE_eq_none_iff {a scale : BitVec 64} (ha : isFinite a) :
    mulRNE a scale = none ↔ f64 scale = .nan ∨ (∃ neg, f64 scale = .inf neg) ∧ valueOf a = 0 := by
  obtain ⟨sa, m, e, hf⟩ := ha
  rw [valueOf_eq_zero_iff hf]
  cases hscale : f64 scale with
  | nan => simp [mulRNE_nan (.inr hscale)]
  | inf neg =>
    by_cases hm : m = 0
    · subst hm
      simp [mulRNE_inf_zero hscale hf]
    · simp [mulRNE_inf_finite hscale hf hm, hm]
  | finite neg ms es => simp [mulRNE_finite hf hscale]

/-- R135: a NaN is converted to 0. -/
theorem cvtOutStandard_nan (scale : Word) {x : Word} (h : f64 x = .nan) : cvtOutStandard scale x = 0 := by
  rw [cvtOutStandard, mulRNE_nan (.inl h)]

/-- Settles O41: a sample's binary64 is finite and zero for a zero sample alone; and the patterns of the quiet NaNs are
those that are drawn. -/
theorem nanResults : Obligations.NaNResults := by
  refine ⟨fun scale v hlow hhigh => ?_, isQuietNaN64_quietNaN, fun b => exists_quietNaN_eq,
    fun scale x => cvtOutStandard_nan scale⟩
  obtain ⟨hsample, hvalue⟩ := fp64_exact (v := v) (by omega)
  rw [cvtInStandard, mulRNE_eq_none_iff hsample, hvalue, Int.cast_eq_zero]

end Sys2Proof.Machine
end

section
/-! # The default cvt_out (41_convert.md R134, R135)

The magnitude that is truncated is the floor of the product's magnitude. Rounding down the magnitude is rounding
toward zero: the floor of a product that is not negative, and the ceiling of a negative one. -/

namespace Sys2Proof.Machine

open Sys2Proof.Claims

/-! ## Truncation -/

theorem truncMag_eq_floor (m : Nat) (e : Int) : truncMag m e = ⌊(m : ℚ) * 2 ^ e⌋₊ := by
  unfold truncMag
  split
  · next hpos =>
    obtain ⟨k, rfl⟩ := Int.eq_ofNat_of_zero_le hpos
    rw [Int.toNat_natCast, zpow_natCast]
    exact_mod_cast (Nat.floor_natCast (R := ℚ) (m * 2 ^ k)).symm
  · next hneg =>
    obtain ⟨k, hk⟩ := Int.eq_ofNat_of_zero_le (a := -e) (by omega)
    rw [hk, Int.toNat_natCast, ← neg_neg e, hk, zpow_neg, zpow_natCast, ← div_eq_mul_inv]
    exact_mod_cast (Nat.floor_div_eq_div (K := ℚ) m (2 ^ k)).symm

/-- The result of R135 is a 16-bit two's-complement number. -/
theorem saturate16_bounds (y : F64) : -32768 ≤ saturate16 y ∧ saturate16 y ≤ 32767 := by
  unfold saturate16
  split
  · decide
  · decide
  · decide
  · split <;> omega
  · split <;> omega

/-- A product that is not negative. -/
theorem saturate16_pos {m : Nat} {e : Int} {y : ℚ} (hy : y = (m : ℚ) * 2 ^ e) :
    saturate16 (.finite false m e) = if 32767 ≤ y then 32767 else ⌊y⌋ := by
  have hpos : 0 ≤ y := hy ▸ by positivity
  have hbound : 32767 ≤ ⌊y⌋₊ ↔ (32767 : ℚ) ≤ y := by exact_mod_cast Nat.le_floor_iff hpos (n := 32767)
  simp only [saturate16, truncMag_eq_floor, ← hy, hbound, Int.natCast_floor_eq_floor hpos]

/-- A product with a negative sign. -/
theorem saturate16_neg {m : Nat} {e : Int} {y : ℚ} (hy : y = -((m : ℚ) * 2 ^ e)) :
    saturate16 (.finite true m e) = if y ≤ -32768 then -32768 else ⌈y⌉ := by
  have hmag : (m : ℚ) * 2 ^ e = -y := by rw [hy, neg_neg]
  have hpos : 0 ≤ -y := hmag ▸ by positivity
  have hbound : 32768 ≤ ⌊-y⌋₊ ↔ y ≤ -32768 := by
    rw [Nat.le_floor_iff hpos, le_neg]
    norm_num
  simp only [saturate16, truncMag_eq_floor, hmag, hbound, Int.natCast_floor_eq_floor hpos, Int.floor_neg, neg_neg]

/-- R135 by the product's value: saturation at both bounds, and truncation toward zero between them. -/
theorem saturate16_finite {y : Word} (h : isFinite y) :
    saturate16 (f64 y) =
      if 32767 ≤ valueOf y then 32767
      else if valueOf y ≤ -32768 then -32768
      else if 0 ≤ valueOf y then ⌊valueOf y⌋ else ⌈valueOf y⌉ := by
  obtain ⟨neg, m, e, hf⟩ := h
  have hmag : (0 : ℚ) ≤ m * 2 ^ e := by positivity
  cases neg with
  | false =>
    have hvalue : valueOf y = m * 2 ^ e := by rw [valueOf_finite hf, signFactor, if_neg (by decide), one_mul]
    have hpos : 0 ≤ valueOf y := hvalue ▸ hmag
    rw [hf, saturate16_pos hvalue, if_neg (c := valueOf y ≤ -32768) (by linarith), if_pos hpos]
  | true =>
    have hvalue : valueOf y = -(m * 2 ^ e) := by rw [valueOf_finite hf, signFactor, if_pos rfl, neg_one_mul]
    have hceil : (if 0 ≤ valueOf y then ⌊valueOf y⌋ else ⌈valueOf y⌉) = ⌈valueOf y⌉ := by
      split
      · next hpos =>
        have hzero : valueOf y = 0 := by linarith
        simp [hzero]
      · rfl
    rw [hf, saturate16_neg hvalue, hceil, if_neg (c := 32767 ≤ valueOf y) (by linarith)]

/-! ## The 16 bits -/

theorem cvtOutStandard_of_some {scale x y : Word} (h : mulRNE x scale = some y) :
    cvtOutStandard scale x = saturate16 (f64 y) := by
  rw [cvtOutStandard, h]

theorem cvtOutStandard_of_none {scale x : Word} (h : mulRNE x scale = none) : cvtOutStandard scale x = 0 := by
  rw [cvtOutStandard, h]

theorem cvtOutStandard_bounds (scale x : Word) :
    -32768 ≤ cvtOutStandard scale x ∧ cvtOutStandard scale x ≤ 32767 := by
  cases h : mulRNE x scale with
  | none => simp [cvtOutStandard_of_none h]
  | some y => simpa only [cvtOutStandard_of_some h] using saturate16_bounds (f64 y)

/-- Under the default rule the stored 16 bits lose nothing of the result. -/
theorem cvtOutValue_toInt {c : Config} (hrule : c.cvtOutRule = .standard) (scale x : Word) :
    (cvtOutValue c scale x).toInt = cvtOutStandard scale x := by
  obtain ⟨hlow, hhigh⟩ := cvtOutStandard_bounds scale x
  have hvalue : cvtOutValue c scale x = BitVec.ofInt 16 (cvtOutStandard scale x) := by rw [cvtOutValue, hrule]
  rw [hvalue, BitVec.toInt_ofInt_eq_self (by decide) (by omega) (by omega)]

/-- Settles O42: each clause is a branch of `saturate16`, for a finite product by its value. -/
theorem cvtOutSaturatesAndTruncates : Obligations.CvtOutSaturatesAndTruncates := by
  refine fun scale x => ⟨fun c hrule => cvtOutValue_toInt hrule scale x, cvtOutStandard_of_none, fun y hy => ?_,
    cvtOutStandard_bounds scale x⟩
  rw [cvtOutStandard_of_some hy]
  refine ⟨fun hinf => by rw [hinf]; rfl, fun hinf => by rw [hinf]; rfl, fun hfin => ?_⟩
  rw [saturate16_finite hfin]
  refine ⟨fun hhigh => if_pos hhigh, fun hlow => ?_, fun hpos hhigh => ?_, fun hlow hneg => ?_⟩
  · rw [if_neg (by linarith), if_pos hlow]
  · rw [if_neg hhigh.not_ge, if_neg (by linarith), if_pos hpos]
  · rw [if_neg (by linarith), if_neg hlow.not_ge, if_neg hneg.not_ge]

end Sys2Proof.Machine
end

section
/-! # Control commands, faulted or not (42_control.md R150 to R153)

A command is guarded by FAULT: while it is not zero the command is ignored, with RESET's word alone excepted, and NOP
changes nothing in any case. -/

namespace Sys2Proof.Machine

/-! ## One command at a time -/

theorem exec_cvtIn_of_faulted {s : State} (h : s.fault ≠ 0#8) : exec .cvtIn s = .next s :=
  congrArg Host.Outcome.next (unlessFaulted_faulted _ h)

theorem exec_cvtOut_of_faulted {s : State} (h : s.fault ≠ 0#8) : exec .cvtOut s = .next s :=
  congrArg Host.Outcome.next (unlessFaulted_faulted _ h)

theorem exec_illegal_of_faulted (w : BitVec 64) {s : State} (h : s.fault ≠ 0#8) : exec (.illegal w) s = .next s :=
  congrArg Host.Outcome.next (unlessFaulted_faulted _ h)

/-- Unfaulted, ILLEGAL writes its code to FAULT and nothing else (R152). -/
theorem exec_illegal_of_clear (w : BitVec 64) {s : State} (h : s.fault = 0#8) :
    exec (.illegal w) s = .next { s with fault := 0x01#8 } :=
  congrArg Host.Outcome.next (unlessFaulted_clear _ h)

/-- While faulted, a write to CMD changes nothing unless it is RESET's word (R153). -/
theorem exec_regWr_cmd_of_faulted {s : State} (h : s.fault ≠ 0#8) {v : BitVec 64} (hv : v ≠ 0xF#64) :
    exec (.regWr 0x00#20 v) s = .next s := by
  change command v s = .next s
  rcases command_cases v s with ⟨-, hcmd⟩ | ⟨-, hcmd⟩ | ⟨-, hcmd⟩ | ⟨-, hcmd⟩ | ⟨hreset, -⟩ | ⟨-, hcmd⟩
  · exact hcmd
  · exact hcmd.trans (exec_decode_of_faulted h)
  · exact hcmd.trans (exec_cvtIn_of_faulted h)
  · exact hcmd.trans (exec_cvtOut_of_faulted h)
  · exact absurd hreset hv
  · exact hcmd.trans (exec_illegal_of_faulted v h)

/-! ## The statements -/

/-- Settles O11. -/
theorem nopChangesNothing : Obligations.NopChangesNothing :=
  fun s => ⟨rfl, exec_regWr_cmd 0x0#64 s⟩

/-- Settles O13. -/
theorem resetKeepsTheHostSide : Obligations.ResetKeepsTheHostSide :=
  fun s => ⟨applyReset s, rfl, applyReset_config s, applyReset_rstI s, applyReset_inputs s, applyReset_response s,
    applyReset_nanDraws s⟩

/-- Settles O15: a word that is none of the five decodes to ILLEGAL, which FAULT guards. -/
theorem illegalRaisesIllegalCmd : Obligations.IllegalRaisesIllegalCmd := by
  intro w s hw
  rw [exec_regWr_cmd, decodeCommand_illegal hw, and_self, and_self]
  exact ⟨exec_illegal_of_clear w, exec_illegal_of_faulted w⟩

/-- Settles O16: FAULT guards every command but RESET, and no transaction. -/
theorem faultedBlockIgnoresCommands : Obligations.FaultedBlockIgnoresCommands := by
  intro s h
  refine ⟨fun v hv => exec_regWr_cmd_of_faulted h hv, exec_decode_of_faulted h, exec_cvtIn_of_faulted h,
    exec_cvtOut_of_faulted h, ⟨applyReset s, exec_regWr_cmd 0xF#64 s, rfl⟩, fun off v hoff => ?_,
    fun sp off v hoff => ?_⟩
  · exact ⟨exec_taken (.regWr off v) hoff, exec_taken (.regRd off) hoff⟩
  · have hwf : decide (off.toNat < sp.size s.config.maxBlockLen) = true := decide_eq_true hoff
    exact ⟨exec_taken (.bufWr sp off v) hwf, exec_taken (.bufRd sp off) hwf⟩

end Sys2Proof.Machine
end

section
/-! # The register port, offset by offset (42_control.md R154, R155)

Which register stands at an offset decides what a read answers and what a write stores; an offset with no register is
refused. -/

namespace Sys2Proof.Machine

/-! ## The register at an offset (10_state.md R21, R35) -/

theorem regAt_reserved {off : BitVec 20} (hmod : off.toNat % 8 = 0) (hlow : 0x50 ≤ off.toNat)
    (hhigh : off.toNat ≤ 0x78) : regAt off = some .reserved := by
  have hok : regOffsetOk off = true := by simp [regOffsetOk, hmod, hhigh]
  obtain ⟨n, hn⟩ : ∃ n, off.toNat / 8 = n + 10 := ⟨off.toNat / 8 - 10, by omega⟩
  rw [regAt_of_regOffsetOk hok, hn]
  rfl

theorem regAt_eq_none {off : BitVec 20} (h : off.toNat % 8 ≠ 0 ∨ 0x78 < off.toNat) : regAt off = none := by
  refine if_neg fun hok => ?_
  simp only [regOffsetOk, Bool.and_eq_true, decide_eq_true_eq] at hok
  omega

/-! ## Reads -/

theorem exec_regRd {off : BitVec 20} {r : Reg} (h : regAt off = some r) {s : State} {v : Word}
    (hv : s.readReg r = v) : exec (.regRd off) s = .next { s with response := some v } := by
  simp only [exec, execRegRd, h, hv, State.respond]

/-- STATUS as a number: FAULT in [7:0], and the two flags at bits 8 and 9 (10_state.md R23). -/
theorem status_eq (s : State) :
    s.status = BitVec.ofNat 64 (s.fault.toNat + 256 * s.sinValid.toNat + 512 * s.soutValid.toNat) := by
  apply BitVec.eq_of_toNat_eq
  simp only [State.status, BitVec.toNat_setWidth, toNat_append_eq_add, BitVec.toNat_ofBool, BitVec.toNat_ofNat]
  omega

/-- Settles O43: each offset's register, and what it reads as. -/
theorem registerReads : Obligations.RegisterReads := by
  intro s
  refine ⟨?cmd, ?status, ?decCfg, ?frameLen, ?blockLen, ?scaleIn, ?scaleOut, ?iqCount, ?micCount, ?params,
    fun off hmod hlow hhigh => ?reserved, fun off hoff => ?refused⟩
  case cmd => exact exec_regRd (r := .cmd) rfl rfl
  case status => exact exec_regRd (r := .status) rfl (status_eq s)
  case decCfg => exact exec_regRd (r := .decCfg) rfl (BitVec.ofNat_toNat ..).symm
  case frameLen => exact exec_regRd (r := .frameLen) rfl (BitVec.ofNat_toNat ..).symm
  case blockLen => exact exec_regRd (r := .blockLen) rfl (BitVec.ofNat_toNat ..).symm
  case scaleIn => exact exec_regRd (r := .scaleIn) rfl rfl
  case scaleOut => exact exec_regRd (r := .scaleOut) rfl rfl
  case iqCount => exact exec_regRd (r := .iqCount) rfl (BitVec.ofNat_toNat ..).symm
  case micCount => exact exec_regRd (r := .micCount) rfl (BitVec.ofNat_toNat ..).symm
  case params => exact exec_regRd (r := .params) rfl rfl
  case reserved => exact exec_regRd (regAt_reserved hmod hlow hhigh) rfl
  case refused => simp only [exec, execRegRd, regAt_eq_none hoff]

/-! ## Writes -/

theorem exec_regWr {off : BitVec 20} {r : Reg} (h : regAt off = some r) (hr : r ≠ .cmd) (v : BitVec 64) (s : State) :
    exec (.regWr off v) s = .next (s.writeReg r v) := by
  cases r with
  | cmd => exact absurd rfl hr
  | _ => simp only [exec, execRegWr, h]

/-- The registers that a write leaves alone: read-only and reserved ones (10_state.md R35, R36). -/
def Reg.ignoresWrites : Reg → Bool
  | .status | .iqCount | .micCount | .params | .reserved => true
  | .cmd | .decCfg | .frameLen | .blockLen | .scaleIn | .scaleOut => false

theorem exec_regWr_of_ignoresWrites {off : BitVec 20} (h : (regAt off).any Reg.ignoresWrites = true) (v : BitVec 64)
    (s : State) : exec (.regWr off v) s = .next s := by
  obtain ⟨r, hoff, hr⟩ := (Option.any_eq_true ..).mp h
  cases r with
  | status | iqCount | micCount | params | reserved => exact exec_regWr hoff nofun v s
  | cmd | decCfg | frameLen | blockLen | scaleIn | scaleOut => cases hr

/-- Settles O45: CMD is the guarded command, and every other offset stores what its register has. -/
theorem registerWrites : Obligations.RegisterWrites := by
  intro s v
  refine ⟨?guarded, command_taken v s, ?decCfg, ?frameLen, ?blockLen, ?scaleIn, ?scaleOut, fun off hoff => ?ignored,
    fun off hoff => ?refused⟩
  case guarded =>
    split
    · next h => exact exec_regWr_cmd_of_faulted h.1 h.2
    · exact exec_regWr_cmd v s
  case decCfg => exact exec_regWr (r := .decCfg) rfl nofun v s
  case frameLen => exact exec_regWr (r := .frameLen) rfl nofun v s
  case blockLen => exact exec_regWr (r := .blockLen) rfl nofun v s
  case scaleIn => exact exec_regWr (r := .scaleIn) rfl nofun v s
  case scaleOut => exact exec_regWr (r := .scaleOut) rfl nofun v s
  case ignored =>
    have hall := (List.all_eq_true (p := fun off => (regAt off).any Reg.ignoresWrites)).mp rfl off hoff
    exact exec_regWr_of_ignoresWrites hall v s
  case refused => simp only [exec, execRegWr, regAt_eq_none hoff]

end Sys2Proof.Machine
end

section
/-! # The buffer port, element by element (42_control.md R156, R157)

Below a buffer's size a read answers one element and a write stores one; at or beyond it both are refused. -/

namespace Sys2Proof.Machine

open Sys2Proof.Claims Sys2Proof.Safety

/-! ## Within and beyond the size -/

theorem exec_bufRd {sp : Space} {off : BitVec 20} {s : State} {v : Word} (h : off.toNat < s.sizeOf sp)
    (hv : s.readSpace sp off.toNat = v) : exec (.bufRd sp off) s = .next { s with response := some v } :=
  hv ▸ if_pos h

theorem exec_bufRd_of_le {sp : Space} {off : BitVec 20} {s : State} (h : s.sizeOf sp ≤ off.toNat) :
    exec (.bufRd sp off) s = .refused .bufOffset := if_neg h.not_gt

theorem exec_bufWr {sp : Space} {off : BitVec 20} {s : State} (h : off.toNat < s.sizeOf sp) (v : BitVec 64) :
    exec (.bufWr sp off v) s = .next (s.writeSpace sp off.toNat v) := if_pos h

theorem exec_bufWr_of_le {sp : Space} {off : BitVec 20} {s : State} (h : s.sizeOf sp ≤ off.toNat) (v : BitVec 64) :
    exec (.bufWr sp off v) s = .refused .bufOffset := if_neg h.not_gt

/-! ## The element written -/

theorem writeSpace_sameButBuffers (s : State) (sp : Space) (off : Nat) (v : Word) :
    sameButBuffers s (s.writeSpace sp off v) := by
  cases sp <;> rfl

/-- A host write is read back: DATA[7:0] in a byte space, all of DATA in a binary64 one. -/
theorem readSpace_writeSpace_same {s : State} (h : buffersCanonical s = true) (sp : Space) (off : Nat) (v : Word) :
    (s.writeSpace sp off v).readSpace sp off =
      if sp = .dspIn ∨ sp = .dspOut then v else (v.extractLsb' 0 8).setWidth 64 := by
  have hbyte : ∀ m : Memory 8, m.wf = true →
      ((m.write off (v.extractLsb' 0 8)).read off).setWidth 64 = (v.extractLsb' 0 8).setWidth 64 :=
    fun m hm => congrArg (BitVec.setWidth 64) (Memory.read_write_same m off 0 _ hm)
  simp only [buffersCanonical, Bool.and_eq_true] at h
  obtain ⟨⟨⟨⟨⟨⟨hframe, hiq⟩, hmic⟩, hcvt⟩, hdspIn⟩, hdspOut⟩, haudio⟩ := h
  cases sp with
  | frameIn => exact hbyte _ hframe
  | iqOut => exact hbyte _ hiq
  | micOut => exact hbyte _ hmic
  | cvtIn => exact hbyte _ hcvt
  | dspIn => exact Memory.read_write_same _ off 0 v hdspIn
  | dspOut => exact Memory.read_write_same _ off 0 v hdspOut
  | audioOut => exact hbyte _ haudio

/-- A BUF kind with space 0 is no transaction (30_encoding.md R82). -/
theorem decodeTxn_bufSpace {kind : BitVec 2} (h : kind = 2#2 ∨ kind = 3#2) (off : BitVec 20) (data : BitVec 64) :
    decodeTxn (txnWord kind 0#3 off data) = .error .bufSpace := by
  rcases h with rfl | rfl <;> simp [decodeTxn, Space.ofId]

/-! ## The statements -/

/-- Settles O46: the stored element reads back, and every other one reads as before. -/
theorem bufferWrites : Obligations.BufferWrites := by
  intro s sp off data hcanonical
  refine ⟨fun hoff => ⟨_, exec_bufWr hoff data, writeSpace_sameButBuffers s sp off.toNat data, ?_, ?_⟩,
    fun hoff => exec_bufWr_of_le hoff data, decodeTxn_bufSpace (.inr rfl) off data⟩
  · exact readSpace_writeSpace_same hcanonical sp off.toNat data
  · exact fun sp' a => readSpace_writeSpace_other s sp sp' off.toNat a data

/-- Settles O47: a byte space's element is zero-extended, and a binary64 one is its pattern. -/
theorem bufferReads : Obligations.BufferReads := by
  intro s off
  refine ⟨fun p hp hoff => ?bytes, fun p hp hoff => ?patterns, fun sp => exec_bufRd_of_le,
    decodeTxn_bufSpace (.inl rfl) off 0#64⟩
  case bytes =>
    refine exec_bufRd hoff ?_
    rw [BitVec.ofNat_toNat]
    simp only [List.mem_cons, List.not_mem_nil, or_false] at hp
    rcases hp with rfl | rfl | rfl | rfl | rfl <;> rfl
  case patterns =>
    refine exec_bufRd hoff ?_
    simp only [List.mem_cons, List.not_mem_nil, or_false] at hp
    rcases hp with rfl | rfl <;> rfl

end Sys2Proof.Machine
end

section
/-! # Runs over the host's transactions (42_control.md R159, 20_memory.md R66)

With nothing left to take a step changes nothing, and a run over well-formed transactions takes one in each step, so
by induction on the list it takes them all. -/

namespace Sys2Proof.Machine

open Sys2Proof.Safety

/-- Settles O9. -/
theorem idleStepChangesNothing : Obligations.IdleStepChangesNothing := by
  intro s hwalk hin
  simp only [step, hwalk, hin]

/-! ## Well-formed transactions, one after the other -/

/-- A well-formed transaction, for a MAX_BLOCK_LEN of `maxB`. -/
def wellFormedTxn (maxB : Nat) (x : HostInput) : Prop :=
  ∃ w i, x = .txn w ∧ decodeTxn w = .ok i ∧ i.wellFormed maxB = true

theorem keepsProgramming.rstI {s t : State} (h : keepsProgramming s t) : t.rstI = s.rstI := by rw [h]

/-- The pin `rst_i` is the platform's: no instruction changes its level (70_reset_and_hazards.md R190). -/
theorem exec_rstI {i : Instr} {s t : State} (h : exec i s = .next t) : t.rstI = s.rstI := by
  cases exec_registerEffect h with
  | reset _ ht => rw [ht, applyReset_rstI]
  | store _ r v _ _ _ ht => rw [ht, writeReg_rstI]
  | keeps hkeeps => exact hkeeps.rstI

/-- A run over well-formed transactions reaches its end, the invariant holding there. -/
theorem run_of_wellFormed {xs : List HostInput} {s : State} (hinv : inv s = true) (hrst : s.rstI = false)
    (hin : s.inputs = xs) (hxs : ∀ x ∈ xs, wellFormedTxn s.config.maxBlockLen x) :
    ∃ t, Host.Core.run Sys2Proof.core xs.length s = .next t ∧ t.inputs = [] ∧ inv t = true := by
  induction xs generalizing s with
  | nil => exact ⟨s, rfl, hin, hinv⟩
  | cons x rest ih =>
    obtain ⟨⟨w, i, rfl, hi, hwf⟩, hrest⟩ := List.forall_mem_cons.mp hxs
    obtain ⟨u, hexec⟩ := exec_taken (isTxn_of_decodeTxn hi) (s := s.consume rest) hwf
    have hstep : Sys2Proof.core.step s = .next u := (step_txn ((inv_iff s).mp hinv).walk hrst hin hi).trans hexec
    obtain ⟨t, hrun, ht⟩ := ih (stepKeepsInvariant s u hinv hstep) ((exec_rstI hexec).trans hrst) (exec_inputs hexec)
      (by rwa [exec_config hexec])
    exact ⟨t, by simp only [List.length_cons, Host.Core.run, hstep, hrun], ht⟩

/-- Settles O57: at the run's end no input is left, so what decides is FAULT. -/
theorem wellFormedRunsReachTheirEnd : Obligations.WellFormedRunsReachTheirEnd := by
  intro s hinv hrst hxs
  obtain ⟨t, hrun, hin, ht⟩ := run_of_wellFormed hinv hrst rfl hxs
  have hrun' : runInputs s = .next t := hrun
  refine ⟨t, hrun', hin, ht, ?_⟩
  simp only [endsWell, hrun', hin, List.isEmpty_nil, Bool.true_and, beq_iff_eq]

end Sys2Proof.Machine
end

section
/-! # How FAULT changes (60_exceptions.md R170, R171, R173, R174)

A host transaction leaves FAULT alone, resets the block, or is a write to CMD whose command, FAULT being 0, fails a
check: then the code goes to FAULT and nothing else changes. A step adds the other two sources of a reset. -/

namespace Sys2Proof.Machine

open Sys2Proof.Claims

/-! ## One transaction -/

/-- All that a host transaction can do to FAULT between commands. -/
inductive FaultEffect (i : Instr) (s : State) : State → Prop
  | keeps {t : State} (h : t.fault = s.fault) : FaultEffect i s t
  | reset (hi : i = .regWr 0x00#20 0xF#64) : FaultEffect i s (applyReset s)
  | raises (v : BitVec 64) (c : FaultCode) (hi : i = .regWr 0x00#20 v) (hnop : v ≠ 0x0#64) (hreset : v ≠ 0xF#64)
      (hclear : s.fault = 0#8) (hc : c ≠ .geometry) : FaultEffect i s (raiseFault c s)

theorem convertFault_ne_geometry (s : State) (valid : Bool) : convertFault s valid ≠ some .geometry := by
  unfold convertFault
  repeat' split
  all_goals nofun

/-- A command that first looks for a fault raises no other than its checks give, and only where FAULT is 0. -/
theorem guarded_faultEffect {v : BitVec 64} (hnop : v ≠ 0x0#64) (hreset : v ≠ 0xF#64) {s : State}
    {check : State → Option FaultCode} {run : State → State → State} (hcheck : check s ≠ some .geometry)
    (hrun : check s = none → (run s s).fault = s.fault) :
    FaultEffect (.regWr 0x00#20 v) s (unlessFaulted s fun s => raiseOr (check s) (run s) s) := by
  rcases unlessFaulted_cases s (fun s => raiseOr (check s) (run s) s) with ⟨-, heq⟩ | ⟨hclear, heq⟩
  · rw [heq]
    exact .keeps rfl
  · rw [heq]
    cases hfails : check s with
    | none => exact .keeps (hrun hfails)
    | some c => exact .raises v c rfl hnop hreset hclear fun hc => hcheck (hc ▸ hfails)

/-- A write to CMD, by the command it starts: only DECODE's checks end with the one for GEOMETRY, which never fails
(40_decode.md R112). -/
theorem command_faultEffect {v : BitVec 64} {s t : State} (h : command v s = .next t) :
    FaultEffect (.regWr 0x00#20 v) s t := by
  rcases command_cases v s with ⟨-, hcmd⟩ | ⟨rfl, hcmd⟩ | ⟨rfl, hcmd⟩ | ⟨rfl, hcmd⟩ | ⟨rfl, hcmd⟩ | ⟨hv, hcmd⟩ <;>
    obtain rfl := Host.Outcome.next.inj (hcmd.symm.trans h)
  · exact .keeps rfl
  · exact guarded_faultEffect (run := fun _ => demultiplex) (by decide) (by decide) (decodeFault_ne_geometry s)
      fun hok => (demultiplex_completed (validate_of_decodeFault hok)).fault
  · refine guarded_faultEffect (run := fun s => convertInFrom s.block 0) (by decide) (by decide)
      (convertFault_ne_geometry s s.sinValid) fun _ => ?_
    rw [convertInFrom_eq]
  · refine guarded_faultEffect (run := fun s => convertOutFrom s.block 0) (by decide) (by decide)
      (convertFault_ne_geometry s s.soutValid) fun _ => ?_
    rw [convertOutFrom_eq]
  · exact .reset rfl
  · refine guarded_faultEffect (check := fun _ => some .illegalCmd) (run := fun _ s => s) ?_ ?_ nofun nofun
    all_goals
      rintro rfl
      exact absurd hv (by decide)

theorem IsTxn.faultEffect {i : Instr} (hi : IsTxn i) {s t : State} (h : exec i s = .next t) : FaultEffect i s t := by
  cases hi with
  | regRd off =>
    obtain ⟨r, -, rfl⟩ := execRegRd_next h
    exact .keeps (respond_fault ..)
  | regWr off v =>
    rcases execRegWr_next h with ⟨hoff, hcmd⟩ | ⟨r, -, -, rfl⟩
    · obtain rfl := offset_of_regAt hoff nofun
      exact command_faultEffect hcmd
    · exact .keeps (writeReg_fault ..)
  | bufRd sp off =>
    obtain ⟨-, rfl⟩ := execBufRd_next h
    exact .keeps (respond_fault ..)
  | bufWr sp off v =>
    obtain ⟨-, rfl⟩ := execBufWr_next h
    exact .keeps (writeSpace_fault ..)

/-! ## One step -/

/-- A level of `rst_i` clears FAULT or leaves it (70_reset_and_hazards.md R190). -/
theorem takeRst_fault (asserted : Bool) (s : State) :
    (takeRst asserted s).fault = s.fault ∨ (takeRst asserted s).fault = 0#8 ∧ resets s (.rst asserted) := by
  unfold takeRst
  split
  · next h => exact .inr ⟨rfl, by simpa [resets] using h⟩
  · exact .inl rfl

/-- All that a step between commands can do to FAULT. -/
theorem step_fault_cases {s t : State} (hwalk : s.walk = none) (h : step s = .next t) :
    t.fault = s.fault ∨
    (t.fault = 0#8 ∧ ∃ i rest, s.inputs = i :: rest ∧ resets s i) ∨
    (s.fault = 0#8 ∧ ∃ w rest v c, s.inputs = .txn w :: rest ∧ decodeTxn w = .ok (.regWr 0x00#20 v) ∧
      v ≠ 0x0#64 ∧ v ≠ 0xF#64 ∧ c ≠ .geometry ∧ t = raiseFault c (s.consume rest)) := by
  rcases step_cases hwalk h with ⟨-, rfl⟩ | ⟨w, rest, i, hin, -, hi, hexec⟩ | ⟨b, rest, hin, rfl⟩ | ⟨rest, hin, rfl⟩
  · exact .inl rfl
  · cases (isTxn_of_decodeTxn hi).faultEffect hexec with
    | keeps hkeeps => exact .inl hkeeps
    | reset hreset => exact .inr (.inl ⟨rfl, .txn w, rest, hin, hi.trans (congrArg Except.ok hreset)⟩)
    | raises v c hv hnop hreset hclear hc =>
      exact .inr (.inr ⟨hclear, w, rest, v, c, hin, hv ▸ hi, hnop, hreset, hc, rfl⟩)
  · exact (takeRst_fault b (s.consume rest)).imp_right fun ⟨hzero, hresets⟩ => .inl ⟨hzero, .rst b, rest, hin, hresets⟩
  · exact .inr (.inl ⟨rfl, .powerOn, rest, hin, trivial⟩)

/-! ## The statements -/

/-- Settles O17: a faulted block raises no other fault, so what is left is a reset. -/
theorem faultIsStickyUntilReset : Obligations.FaultIsStickyUntilReset := by
  refine ⟨faulted_iff, fun s t hwalk hfault h => ?_⟩
  rcases step_fault_cases hwalk h with hkeeps | hreset | ⟨hclear, -⟩
  · exact .inl hkeeps
  · exact .inr hreset
  · exact absurd hclear hfault

/-- R170's codes without GEOMETRY's. -/
theorem code_mem_of_ne_geometry {c : FaultCode} (h : c ≠ .geometry) :
    c.code ∈ [0x01#8, 0x02#8, 0x03#8, 0x04#8, 0x05#8, 0x06#8, 0x08#8, 0x09#8] := by
  revert h
  cases c <;> decide

/-- Settles O18: of what a step can do to FAULT, only a command that fails its check leaves it other than 0. -/
theorem faultsArePrecise : Obligations.FaultsArePrecise := by
  intro s t hwalk hclear h hfault
  rcases step_fault_cases hwalk h with hkeeps | ⟨hzero, -⟩ | ⟨-, w, rest, v, c, hin, hi, hnop, hreset, hc, rfl⟩
  · exact absurd (hkeeps.trans hclear) hfault
  · exact absurd hzero hfault
  · exact ⟨w, rest, v, hin, hi, hnop, hreset, rfl, code_mem_of_ne_geometry hc⟩

end Sys2Proof.Machine
end

section
/-! # What reset leaves, and its three sources (70_reset_and_hazards.md R190 to R192)

RESET, power-on and `rst_i` all run the one reset operation, so what holds of it holds after each of them: every
register and buffer is zero, and a zero configuration fails the first check of each command. -/

namespace Sys2Proof.Machine

open Sys2Proof.Claims Sys2Proof.Safety

/-! ## The reset operation -/

theorem applyReset_atResetValues (s : State) : atResetValues (applyReset s) :=
  ⟨rfl, rfl, rfl, rfl, rfl, rfl, rfl, rfl, rfl, rfl, applyReset_readSpace s, rfl⟩

/-- PARAMS shows the configuration, which no reset changes (R191). -/
theorem applyReset_readReg_params (s : State) : (applyReset s).readReg .params = s.readReg .params := rfl

theorem applyReset_applyReset (s : State) : applyReset (applyReset s) = applyReset s := rfl

/-- The MAX_BLOCK_LEN left open lies in R8's range. -/
theorem chip_legal : Config.chip.legal = true :=
  Bool.and_eq_true_iff.mpr ⟨decide_eq_true (Nat.le_add_left 1 _), decide_eq_true Config.maxBlockLenPred.isLt⟩

theorem reset_invariant : Invariant State.reset where
  config := chip_legal
  fits sp := by cases sp <;> exact ⟨rfl, rfl⟩
  fault := Nat.zero_le _
  counts := rfl
  walk := rfl

/-! ## The sources of a reset -/

/-- Between commands a step takes the first of the inputs. -/
theorem step_takeInput {s : State} {i : HostInput} {rest : List HostInput} (hwalk : s.walk = none)
    (hin : s.inputs = i :: rest) : step s = takeInput i (s.consume rest) := by
  simp only [step, hwalk, hin]

/-- While `rst_i` is asserted, and when it is released, the block is reset (R190). -/
theorem takeRst_of_level {asserted : Bool} {s : State} (h : asserted = true ∨ s.rstI = true) :
    takeRst asserted s = applyReset { s with rstI := asserted } :=
  if_pos (Bool.or_eq_true_iff.mpr h)

theorem step_powerOn {s : State} {rest : List HostInput} (hwalk : s.walk = none)
    (hin : s.inputs = .powerOn :: rest) : step s = .next (applyReset (s.consume rest)) :=
  step_takeInput hwalk hin

theorem step_rst {asserted : Bool} {s : State} {rest : List HostInput} (hwalk : s.walk = none)
    (hin : s.inputs = .rst asserted :: rest) (h : asserted = true ∨ s.rstI = true) :
    step s = .next (applyReset { s.consume rest with rstI := asserted }) :=
  (step_takeInput hwalk hin).trans (congrArg Host.Outcome.next (takeRst_of_level h))

/-- Under an asserted `rst_i` the word of a transaction is not even decoded. -/
theorem step_txn_of_rstI {s : State} {w : BitVec 96} {rest : List HostInput} (hwalk : s.walk = none)
    (hrst : s.rstI = true) (hin : s.inputs = .txn w :: rest) : step s = .refused .resetAsserted :=
  (step_takeInput hwalk hin).trans (if_pos hrst)

/-- Settles O8: each source answers what the reset operation does to some state. -/
theorem resetSourcesAgree : Obligations.ResetSourcesAgree := by
  refine fun s rest hwalk => ⟨?command, fun hin => ?powerOn, fun hin => ?asserted, fun hrst hin => ?released,
    fun w hrst hin => step_txn_of_rstI hwalk hrst hin⟩
  case command => exact ⟨_, rfl, applyReset_atResetValues s⟩
  case powerOn => exact ⟨_, step_powerOn hwalk hin, applyReset_atResetValues _, rfl⟩
  case asserted => exact ⟨_, step_rst hwalk hin (.inl rfl), applyReset_atResetValues _, rfl, rfl⟩
  case released => exact ⟨_, step_rst hwalk hin (.inr hrst), applyReset_atResetValues _, rfl, rfl⟩

/-! ## After a reset -/

/-- RX_COUNT is zero after a reset, so DECODE's first check fails. -/
theorem exec_decode_applyReset (s : State) :
    exec .decode (applyReset s) = .next { applyReset s with fault := 0x02#8 } := by
  have hvalidate : validate (applyReset s) = some .cfgRxCount := if_pos rfl
  exact exec_decode_of_fault rfl (decodeFault_of_validate hvalidate)

/-- BLOCK_LEN is zero after a reset, so the conversions' first check fails. -/
theorem convertFault_applyReset (s : State) (valid : Bool) :
    convertFault (applyReset s) valid = some .blockSize :=
  if_pos (.inl rfl)

/-- Settles O12: a word beyond 16 is none of the five commands, RESET's among them. -/
theorem resetClearsEverything : Obligations.ResetClearsEverything := by
  refine fun s => ⟨⟨_, rfl, applyReset_atResetValues s, applyReset_readReg_params s⟩, fun v _ hv => ?nearMiss⟩
  case nearMiss =>
    refine ⟨decodeCommand_illegal (isCommandWord_eq_false (.inl hv)), fun hfault => ?_⟩
    have hne : v ≠ 0xF#64 := by bv_omega
    exact exec_regWr_cmd_of_faulted hfault hne

/-- Settles O14: FAULT is clear, so each command makes its first check. -/
theorem commandsAfterReset : Obligations.CommandsAfterReset := by
  intro s t h
  obtain rfl : applyReset s = t := Host.Outcome.next.inj h
  refine ⟨applyReset_atResetValues s, rfl, rfl, rfl, applyReset_readReg_params s, exec_decode_applyReset s, ?cvtIn,
    ?cvtOut, rfl, congrArg Host.Outcome.next (applyReset_applyReset s), fun w _ => exec_illegal_of_clear w rfl⟩
  case cvtIn => exact exec_cvtIn_of_fault rfl (convertFault_applyReset s _)
  case cvtOut => exact exec_cvtOut_of_fault rfl (convertFault_applyReset s _)

/-- Settles O51. -/
theorem resetMeetsInvariant : Obligations.ResetMeetsInvariant :=
  (inv_iff State.reset).mpr reset_invariant

end Sys2Proof.Machine
end

section
/-! # What the host owes a command (70_reset_and_hazards.md R194, R196)

A command's checks pass exactly where the host has set it up, and a command whose checks pass leaves FAULT as it was. -/

namespace Sys2Proof.Machine

open Sys2Proof.Claims Sys2Proof.Safety

/-! ## Ready is passing every check -/

/-- The rates that R101 does not refuse are the legal ones. -/
theorem rate_legal_iff {rate : Nat} {m : MicDecim384} :
    ¬(3 < rate ∨ rate = 3 ∧ m = .refuse) ↔ rate < 3 ∨ rate = 3 ∧ m = .eight := by
  cases m <;> simp <;> omega

theorem readyToDecode_iff (s : State) :
    readyToDecode s = true ↔ 1 ≤ s.rxCount ∧ s.rxSel < s.rxCount ∧
      (s.rate < 3 ∨ s.rate = 3 ∧ s.config.micDecim384 = .eight) ∧ s.declaredLen = frameBytes := by
  simp only [readyToDecode, Bool.and_eq_true, Bool.or_eq_true, decide_eq_true_eq, beq_iff_eq, and_assoc]

theorem validate_eq_none_iff (s : State) : validate s = none ↔ readyToDecode s = true := by
  rw [readyToDecode_iff, ← rate_legal_iff]
  constructor
  · intro h
    obtain ⟨hn, hsel, -, hlen⟩ := validate_eq_none h
    refine ⟨hn, hsel, fun hrate => ?_, hlen⟩
    rw [validate, if_neg (by omega), if_neg (by omega), if_pos hrate] at h
    cases h
  · rintro ⟨hn, hsel, hrate, hlen⟩
    rw [validate, if_neg (by omega), if_neg (by omega), if_neg hrate, if_neg (not_not_intro hlen)]

theorem checkSync_eq_none_iff (s : State) :
    checkSync s = none ↔ (!s.config.strictSync || syncOk s.frameIn) = true := by
  unfold checkSync
  cases s.config.strictSync <;> cases syncOk s.frameIn <;> decide

theorem decodeFault_eq_none_iff (s : State) : decodeFault s = none ↔ readyFrame s = true := by
  rw [readyFrame, Bool.and_eq_true, ← validate_eq_none_iff, ← checkSync_eq_none_iff]
  constructor
  · intro h
    have hvalid := validate_of_decodeFault h
    exact ⟨hvalid, (decodeFault_of_validate_none hvalid).symm.trans h⟩
  · rintro ⟨hvalid, hsync⟩
    exact (decodeFault_of_validate_none hvalid).trans hsync

theorem convertFault_eq_none_iff (s : State) (valid : Bool) :
    convertFault s valid = none ↔ (blockLegal s && valid) = true := by
  have hlegal : blockLegal s = true ↔ blockInRange s := by
    rw [blockLegal, Bool.and_eq_true, decide_eq_true_eq, decide_eq_true_eq]
    rfl
  rw [Bool.and_eq_true, hlegal]
  by_cases hblock : blockInRange s
  · rw [convertFault_of_blockInRange valid hblock]
    cases valid <;> simp [hblock]
  · simp [convertFault_of_not_blockInRange valid hblock, hblock]

/-! ## No fault is passing every check -/

/-- No fault's code is 0, so FAULT stays 0 where the checks pass and the run leaves it alone, and nowhere else. -/
theorem guarded_fault_eq_zero_iff {s : State} {check : State → Option FaultCode} {run : State → State → State}
    (hclear : s.fault = 0#8) (hrun : check s = none → (run s s).fault = s.fault) :
    (unlessFaulted s fun s => raiseOr (check s) (run s) s).fault = 0#8 ↔ check s = none := by
  rw [unlessFaulted_clear _ hclear]
  cases hcheck : check s with
  | none => simpa [hclear] using hrun hcheck
  | some c => simpa using code_ne_zero c

/-- Settles O56: each command is its checks and a run that leaves FAULT as it was. -/
theorem readyCommandsDoNotFault : Obligations.ReadyCommandsDoNotFault := by
  refine fun s hclear => ⟨⟨_, rfl, ?decode⟩, ⟨_, rfl, ?cvtIn⟩, ⟨_, rfl, ?cvtOut⟩⟩
  case decode =>
    exact (guarded_fault_eq_zero_iff (run := fun _ => demultiplex) hclear fun hok =>
      (demultiplex_completed (validate_of_decodeFault hok)).fault).trans (decodeFault_eq_none_iff s)
  case cvtIn =>
    exact (guarded_fault_eq_zero_iff (run := fun s => convertInFrom s.block 0) hclear fun _ => by
      rw [convertInFrom_eq]).trans (convertFault_eq_none_iff s s.sinValid)
  case cvtOut =>
    exact (guarded_fault_eq_zero_iff (run := fun s => convertOutFrom s.block 0) hclear fun _ => by
      rw [convertOutFrom_eq]).trans (convertFault_eq_none_iff s s.soutValid)

end Sys2Proof.Machine
end
